-- ==== Sys2Proof/Word.lean ====
section
/-! DEFINITION. The words of the two burst ports: bytes, 32-byte beats, addresses (R41). -/
namespace Sys2Proof

/-- One byte. -/
abbrev Byte := BitVec 8

/-- One beat of a burst, 32 bytes (R41). Byte `k` of the beat is bits `8k` to `8k + 7`, so that a
field of several bytes, stored least significant byte first, is one run of bits. -/
abbrev Beat := BitVec 256

/-- The byte enables of one beat: bit `k` enables byte `k` (R41). -/
abbrev Enables := BitVec 32

/-- A 36-bit frame memory address (R41). -/
abbrev Addr := BitVec 36

/-- A 32-bit field: a frame number, a group number, a trigger word's value. -/
abbrev Word32 := BitVec 32

end Sys2Proof
end

