-- ==== Sys2Proof/Syntax.lean ====
section
/-! DEFINITION. The commands of the block: one constructor per row of spec/opcode_table.json. -/
namespace Sys2Proof

/-- The memory's response status (R179). -/
inductive MemStatus where
  | okay
  | error
  deriving DecidableEq, Repr

/-- One data beat of a write with its byte enables (R41). -/
structure WriteBeat where
  data : Beat
  enables : Enables
  deriving DecidableEq, Repr

/-- The commands. A command is one whole, indivisible step of the part (95_what_each_step_holds.md).
The answers carry the tag, the status and, for reads, the data beats the memory returned (R179). -/
inductive Instr where
  /-- RST_N goes low (R194). -/
  | coldReset
  /-- RST_N is released with CA_SEL at the value given (R192, R194). -/
  | resetRelease (caSel : BitVec 4)
  /-- The recorder presents a read (R41, R52). -/
  | recorderRead (addr : Addr) (length : Fin 32) (tag : Fin 32)
  /-- The recorder presents a write; its length is the number of its beats (R41, R53). -/
  | recorderWrite (addr : Addr) (tag : Fin 32) (beats : List WriteBeat)
  /-- Channel command 1 handed over (R81, R83). -/
  | start (channel : Fin 8)
  /-- Channel command 2 handed over (R86). -/
  | stop (channel : Fin 8)
  /-- Channel command 3 handed over (R87). -/
  | abort (channel : Fin 8)
  /-- Channel command 4 handed over (R85). -/
  | resume (channel : Fin 8)
  /-- A channel command of another value handed over (R80). -/
  | unknownCommand (channel : Fin 8) (value : Word32)
  /-- A load word of 1 handed over (R195). -/
  | load
  /-- A clear word of 1 handed over (R198). -/
  | warmClear
  /-- A taken index handed over (R201). -/
  | takenIndexWrite (value : Word32)
  /-- The CONTAINED class clear word of 1 handed over (R204). -/
  | containedClassClear
  /-- The UNCONTAINED class clear word of 1 handed over (R204). -/
  | uncontainedClassClear
  /-- The memory can take a request (R183). -/
  | issue
  /-- Answer to a passed recorder request (R49). -/
  | passAnswer (tag : Fin 32) (status : MemStatus) (beats : List Beat)
  /-- Answer to a concealment source read (R58). -/
  | sourceReadAnswer (tag : Fin 32) (status : MemStatus) (beats : List Beat)
  /-- A response whose tag is not in use (R180). -/
  | unknownTagResponse (tag : Fin 32) (status : MemStatus) (beats : List Beat)
  /-- Answer to a channel word read (R83, R85). -/
  | channelWordReadAnswer (tag : Fin 32) (status : MemStatus) (beats : List Beat)
  /-- Answer to a plan fetch (R95). -/
  | planFetchAnswer (tag : Fin 32) (status : MemStatus) (beats : List Beat)
  /-- Answer to a rejected plan's status write (R99). -/
  | rejectedStatusWriteAnswer (tag : Fin 32) (status : MemStatus)
  /-- Answer to a group's status write (R101). -/
  | statusWriteAnswer (tag : Fin 32) (status : MemStatus)
  /-- Answer to the configuration header read (R195). -/
  | headerReadAnswer (tag : Fin 32) (status : MemStatus) (beats : List Beat)
  /-- Answer to a report write (R200). -/
  | reportWriteAnswer (tag : Fin 32) (status : MemStatus)
  /-- Answer to a mirror beat write (R205). -/
  | mirrorWriteAnswer (tag : Fin 32) (status : MemStatus)
  /-- Answer to a fault page beat write (R204). -/
  | faultPageWriteAnswer (tag : Fin 32) (status : MemStatus)
  /-- Answer to a CONCEALED tail write (R171). -/
  | concealedTailWriteAnswer (tag : Fin 32) (status : MemStatus)
  /-- Answer to one burst of an engine sector read (R143). -/
  | engineReadAnswer (tag : Fin 32) (status : MemStatus) (beats : List Beat)
  /-- Answer to one burst of an engine sector write (R143, R154). -/
  | engineWriteAnswer (tag : Fin 32) (status : MemStatus)
  /-- Answer to a REBUILT tail write (R154, R156). -/
  | engineTailWriteAnswer (tag : Fin 32) (status : MemStatus)
  /-- The engine issues its next due request (R144). -/
  | engineRequestIssue
  /-- The Concealment Unit presents its next CONCEALED tail write (R170). -/
  | concealedTailPresent
  /-- A refill event (R142). -/
  | tokenRefill
  /-- Held entries reach their deadline (R74). -/
  | holdExpired
  /-- A group's gather deadline is reached (R119). -/
  | gatherDeadline (group : Fin 32)
  /-- A group's reread deadline is reached (R128). -/
  | rereadDeadline (group : Fin 32)
  /-- One step of the running membership search (R35). -/
  | searchStep
  /-- Steps 4 to 7 of a warm clear (R198). -/
  | warmClearAbandon
  /-- Steps 3 and 4 of a fault entry (R199). -/
  | faultEntryAbandon
  deriving DecidableEq, Repr

end Sys2Proof
end

