-- ==== Sys2Proof/Decode.lean ====
section
/-! DEFINITION. Words of the opcode table. -/
namespace Sys2Proof

/-- The command a word spells by the table's bits. No row of spec/opcode_table.json gives bits (every
row's "fields" is empty), so no word spells a command. -/
def decodeTableWord (nbits w : Nat) : Option Instr :=
  match nbits, w with
  | _, _ => none

end Sys2Proof
end

