-- ==== Sys2Proof/Config.lean ====
section
/-! DEFINITION. The sizes and places the spec fixes for every part, and the model's own work bound. -/
namespace Sys2Proof.Config

/-- Tags on either port (R41, R180). -/
def tagCount : Nat := 32

/-- Group Table entries (R90). -/
def groupCount : Nat := 32

/-- Possible slots (R16). -/
def slotLimit : Nat := 2048

/-- Held requests at most (R62). -/
def holdCapacity : Nat := 16

/-- Concealment Table entries at most (R163). -/
def concealCapacity : Nat := 64

/-- Ranges of a damage extent at most (R21). -/
def extentCapacity : Nat := 4

/-- Engine requests in flight at most (R144). -/
def engineInFlight : Nat := 8

/-- Bursts of one sector read or write, and beats of each (R143). -/
def sectorBursts : Nat := 8

/-- Beats of one burst of a sector read or write (R143). -/
def burstBeats : Nat := 16

/-- Bytes of a page (R3). -/
def pageBytes : Nat := 4096

/-- Bytes of a beat (R41). -/
def beatBytes : Nat := 32

/-- Size of the control area (R192). -/
def controlBytes : Nat := 65536

/-- Size of one CA_SEL bank, 4 GiB (R192). -/
def bankBytes : Nat := 4294967296

/-- Size of the address space, 2^36 bytes (R41). -/
def spaceBytes : Nat := 68719476736

/-- Offset of the load word (R192). -/
def loadWord : Nat := 0x100
/-- Offset of the clear word (R192). -/
def clearWord : Nat := 0x120
/-- Offset of channel 0's word (R192). -/
def channelWords : Nat := 0x200
/-- Distance between channel words (R192). -/
def channelWordBytes : Nat := 0x40
/-- Offset of the command field within a channel word (R207). -/
def commandField : Nat := 0x10
/-- Offset of the taken index (R192). -/
def takenWord : Nat := 0x400
/-- Offset of the status mirror (R192). -/
def mirrorArea : Nat := 0x800
/-- Offset of the fault page (R192). -/
def faultPage : Nat := 0x1000
/-- Offset of the CONTAINED class clear word (R208). -/
def containedClearWord : Nat := 0x1080
/-- Offset of the UNCONTAINED class clear word (R208). -/
def uncontainedClearWord : Nat := 0x10A0

/-- The model's own bound on the internal tasks one step works (DESIGN CHOICE, log 11; UNSAFE if a
step ever needed more: what is left would be dropped). -/
def stepWork : Nat := 1048576

/-- Free value number `k` that orders SERVICE requests of different owners presented in one step: how
far a request overtakes those presented before it (R182 leaves the order open; log 8). -/
opaque freeOrder : Nat → Nat

/-- Free value number `k` for the bytes of a fault record beat whose content the spec does not state: the
fields a record does not hold, and every field of an invalid record (R208; log 20). -/
opaque freeBeat : Nat → Beat

end Sys2Proof.Config
end

