-- ==== Sys2Proof/Machine/State.lean ====
section
/-! DEFINITION. The state of the part: one structure per block of 00_scope.md, and the state after reset. -/
namespace Sys2Proof.Machine

/-! ## Names of modes, states and kinds -/

/-- The part states (R193). -/
inductive PartState where
  | blank | configured | clearing | faulted
  deriving DecidableEq, Repr

/-- The load results (R195, R196, R208). -/
inductive LoadResult where
  | none | ok | busy | readError | badGeometry | badArena | badRing | badField
  deriving DecidableEq, Repr

/-- The arbitration modes (R184, R185). -/
inductive ArbitrationMode where
  | strict | fair
  deriving DecidableEq, Repr

/-- The request classes of the memory port (R181). -/
inductive RequestClass where
  | pass | service | engine
  deriving DecidableEq, Repr

/-- Request kinds of either port (R41). -/
inductive RequestKind where
  | read | write
  deriving DecidableEq, Repr

/-- Response statuses of the recorder port (R41). -/
inductive ResponseStatus where
  | okay | poison | refused
  deriving DecidableEq, Repr

/-- The frame states (R17). -/
inductive FrameState where
  | free | filling | arriving | sealed | verified | repaired | concealed | lost | stale | quarantined
  deriving DecidableEq, Repr

/-- A member's kind in its group (R16): DATA, or PARITY-j. -/
inductive MemberKind where
  | data
  | parity (j : Nat)
  deriving DecidableEq, Repr

/-- The roles of a channel and its groups (R78). -/
inductive Role where
  | record | restore
  deriving DecidableEq, Repr

/-- The channel states (R82). -/
inductive ChannelState where
  | disabled | loading | active | waiting | draining | stopped | closing
  deriving DecidableEq, Repr

/-- The error codes of a channel and of a status word (R100). -/
inductive ErrorCode where
  | none | readError | counts | field | slotRange | slotRepeat | slotBusy | align
  deriving DecidableEq, Repr

/-- The results of a channel command (R80). -/
inductive CommandResult where
  | accepted | refusedState | unknown | blank
  deriving DecidableEq, Repr

/-- The states of a group (R103, R116). -/
inductive GroupState where
  | collecting | sealing | gathering | awaitingReread | auditing | reconstructing | concealing
  | retiring | abandoning
  deriving DecidableEq, Repr

/-- The outcomes of a plan (R100). -/
inductive GroupOutcome where
  | sealed | sealedDegraded | intact | restored | patched | failed | abandoned | rejected
  deriving DecidableEq, Repr

/-- The concealment policies (R93). -/
inductive Policy where
  | holdPrevious | fill | poison
  deriving DecidableEq, Repr

/-- The verdicts of a tail as the 2416 reads them (R6). -/
inductive Verdict where
  | clean | corrected | unreadable | skipped | rebuilt | concealed
  deriving DecidableEq, Repr

/-- The hold cases (R64). -/
inductive HoldCase where
  | quarantine | sealWrite | sealParityRead | repairWrite | repairRead | samePage
  deriving DecidableEq, Repr

/-- The kinds of engine job (R137). -/
inductive JobKind where
  | seal | audit | rebuild
  deriving DecidableEq, Repr

/-- The engine states (R137). -/
inductive EngineState where
  | idle | running | ending | quiescing | quiet
  deriving DecidableEq, Repr

/-- The fault classes (R203). -/
inductive FaultClass where
  | contained | uncontained
  deriving DecidableEq, Repr

/-- The fault kinds (R203). -/
inductive FaultKind where
  | planError | holdExpired | holdOverflow | ringOverflow | engineReadError | engineWriteError
  | serviceWriteError | concealFull | malformed | mapParity
  | mapMembership | groupTableParity | concealTableParity
  deriving DecidableEq, Repr

/-- The report kinds (R202). -/
inductive ReportKind where
  | groupDone | reread | worn | signal | frameStale | withdrawn | holdExpired | channelState | fault
  deriving DecidableEq, Repr

/-- The dispositions of an accepted request (R42). No step of the model leaves an entry ANSWERING: a
response leaves the port in the step that decides it (DESIGN CHOICE, log 5). -/
inductive Disposition where
  | waitingIssue | issued | held | redirected | answering
  deriving DecidableEq, Repr

/-! ## Shared pieces -/

/-- A sector range: a first position and a count (R21). -/
structure SectorRange where
  first : Nat
  count : Nat
  deriving DecidableEq, Repr

/-- A damage extent: an ordered list of at most four ranges (R21). -/
abbrev Extent := List SectorRange

/-- A set of sector positions: strictly rising, so that equal sets are equal lists. -/
abbrev Positions := List Nat

/-- A sector's content, 128 beats (R3). -/
abbrev Sector := List Beat

/-- A table keyed by number, holding only the entries in use: keys strictly rising. -/
abbrev Table (α : Type) := List (Nat × α)

/-! ## Pins -/

/-- The pins of the part (00_scope.md). -/
structure Pins where
  /-- RST_N is held low (R194). -/
  resetLow : Bool
  /-- CA_SEL[3:0] as sampled at the last release (R192). -/
  caSel : BitVec 4
  /-- IRQ_N is driven low (R206). -/
  irqLow : Bool
  deriving DecidableEq, Repr

/-! ## Recorder Port -/

/-- The trigger words (R48). -/
inductive TriggerWord where
  | load | clear
  | command (channel : Fin 8)
  | taken | containedClear | uncontainedClear
  deriving DecidableEq, Repr

/-- One item of a trigger list: the word and the value written to it (R48). -/
structure Trigger where
  word : TriggerWord
  value : Word32
  deriving DecidableEq, Repr

/-- The redirect part of a REDIRECTED read (R42). -/
inductive RedirectPart where
  | source (addr : Nat)
  | fill
  deriving DecidableEq, Repr

/-- A request as the recorder presents it (R41). `length` is its count of beats. -/
structure PortRequest where
  kind : RequestKind
  addr : Nat
  length : Nat
  tag : Nat
  beats : List WriteBeat
  deriving DecidableEq, Repr

/-- An accepted-request table entry in use (R42). -/
structure Accepted where
  kind : RequestKind
  addr : Nat
  length : Nat
  /-- Write data and byte enables, kept until the write is issued or answered (R42). -/
  beats : List WriteBeat
  disposition : Disposition
  triggers : List Trigger
  redirect : Option RedirectPart
  /-- The member slot of a fenced write (R61). -/
  fence : Option Nat
  /-- Place in the order of acceptance (R60; the model's own, log 12). -/
  seq : Nat
  deriving DecidableEq, Repr

/-- A response on the recorder port (R41). -/
structure Response where
  tag : Nat
  status : ResponseStatus
  beats : List Beat
  deriving DecidableEq, Repr

/-- The Recorder Port. -/
structure RecorderPort where
  accepted : Table Accepted
  /-- Requests the recorder has presented and the port has not taken (R45), first in first out. -/
  presented : List PortRequest
  /-- Acceptance order of the next request (log 12). -/
  nextSeq : Nat
  /-- Responses that have left the port, oldest first (log 6). -/
  sent : List Response
  deriving DecidableEq, Repr

/-! ## Frame Map -/

/-- A frame entry (R16). `parityOk` stands for the entry parity: whether the check bits agree with the
other fields (log 9). -/
structure FrameEntry where
  state : FrameState
  channel : Option (Fin 8)
  kind : Option MemberKind
  frameNumber : Option Word32
  groupNumber : Option Word32
  owner : Option Nat
  extent : Extent
  worn : Bool
  parityOk : Bool
  deriving DecidableEq, Repr

/-- A FREE entry: what a slot that nothing has claimed holds (R17, R40). -/
def FrameEntry.free : FrameEntry :=
  { state := .free, channel := none, kind := none, frameNumber := none, groupNumber := none,
    owner := none, extent := [], worn := false, parityOk := true }

/-- A running membership search (R35). `noted` holds, for each member noted, the Group Table index
and the load serial of the group it belongs to. -/
structure Search where
  slot : Nat
  next : Nat
  noted : List (Nat × Nat)
  deriving DecidableEq, Repr

/-- The Frame Map. A slot the table does not list is FREE (R16, R40). -/
structure FrameMap where
  entries : Table FrameEntry
  pendingSearch : List Nat
  search : Option Search
  deriving DecidableEq, Repr

/-! ## Group Controller -/

/-- An arrival record (R8). The verdict and the misplaced mark are absent for RECORD groups (R12). -/
structure Arrival where
  slot : Nat
  member : Nat
  position : Nat
  verdict : Option Verdict
  count : Option Nat
  torn : Bool
  misplaced : Option Bool
  deriving DecidableEq, Repr

/-- A member record (R103, R116). -/
structure Member where
  slot : Nat
  kind : MemberKind
  arrived : Positions
  firstPass : Positions
  requested : Positions
  outstanding : Nat
  correctedTotal : Nat
  damageMark : Bool
  failed : Positions
  deriving DecidableEq, Repr

/-- What a RESTORE plan says of its repair (R93, R116). -/
structure RestoreTerms where
  policy : Policy
  reach : Nat
  audit : Bool
  rereadBudget : Nat
  /-- In ms; 0 sets no deadline. -/
  gatherLimit : Nat
  /-- In ms. -/
  rereadLimit : Nat
  deriving DecidableEq, Repr

/-- The counts of a group (R116). -/
structure GroupCounts where
  damagedAtCheck : Nat
  rebuilt : Nat
  concealed : Nat
  lost : Nat
  transient : Nat
  persistent : Nat
  silentFound : Nat
  misplaced : Nat
  wornFrames : Nat
  deriving DecidableEq, Repr

/-- A group whose counts are all 0 (R97). -/
def GroupCounts.zero : GroupCounts :=
  { damagedAtCheck := 0, rebuilt := 0, concealed := 0, lost := 0, transient := 0, persistent := 0,
    silentFound := 0, misplaced := 0, wornFrames := 0 }

/-- A Group Table entry in use (R103, R116). -/
structure Group where
  /-- Which load made this group (the model's own, log 13). -/
  serial : Nat
  channel : Fin 8
  role : Role
  groupNumber : Word32
  planAddress : Nat
  firstFrame : Word32
  dataCount : Nat
  parityCount : Nat
  state : GroupState
  /-- Absent for a RECORD group (R103). -/
  terms : Option RestoreTerms
  gatherDeadline : Option Nat
  rereadDeadline : Option Nat
  rounds : Nat
  /-- `uncollected` of a RECORD group (R103), `ungathered` of a RESTORE group (R116). -/
  missing : Nat
  beyond : Positions
  members : List Member
  counts : GroupCounts
  /-- The parity members made LOST when a RECORD group retired (R110), which its status word and GROUP_DONE
  report; a field of the model's own, so that `counts` of a RECORD record stays 0 throughout (R103; log 34). -/
  madeLost : Nat
  outcome : Option GroupOutcome
  /-- Whether the check bits agree with the record (R103, R116; log 9). -/
  checkOk : Bool
  deriving DecidableEq, Repr

/-- The Group Controller's table. -/
structure GroupTable where
  entries : Table Group
  nextSerial : Nat
  deriving DecidableEq, Repr

/-! ## Hold Queue -/

/-- The page of a slot a request lies in (R62). -/
inductive Page where
  | payload (position : Nat)
  | tail
  deriving DecidableEq, Repr

/-- What a held entry waits on (R62). -/
inductive WaitsOn where
  | slot (slot : Nat)
  | group (index : Nat)
  | tag (tag : Nat)
  deriving DecidableEq, Repr

/-- A held entry (R62). -/
structure Held where
  tag : Nat
  kind : RequestKind
  addr : Nat
  length : Nat
  slot : Nat
  page : Page
  byPayload : Option Nat
  byTail : Positions
  case : HoldCase
  waitsOn : WaitsOn
  groupAtHold : Option (Fin 8 × Word32)
  deadline : Nat
  deriving DecidableEq, Repr

/-! ## Repair Engine -/

/-- A waiting job (R137). -/
structure Job where
  group : Nat
  kind : JobKind
  promoted : Bool
  deriving DecidableEq, Repr

/-- What an engine request carries (R143). -/
inductive EngineOp where
  | readSector
  | writeSector (data : Sector)
  | writeTail
  deriving DecidableEq, Repr

/-- An engine request that has fallen due and is not yet issued (R144). `member` is its place in the
member order. -/
structure DueRequest where
  member : Nat
  op : EngineOp
  deriving DecidableEq, Repr

/-- An engine request in flight (R143, R144): its number, what it is for, and the bursts answered so
far with their data. -/
structure EngineRequest where
  id : Nat
  member : Nat
  op : EngineOp
  answered : List (Nat × List Beat)
  failed : Bool
  deriving DecidableEq, Repr

/-- The position context (R137). -/
structure PositionContext where
  /-- The damaged set as last taken: members, rising. -/
  damaged : Positions
  /-- The members chosen to be read. -/
  chosen : Positions
  /-- Sectors read OKAY, by member. -/
  received : List (Nat × Sector)
  /-- Requests due, in the order of R144. -/
  due : List DueRequest
  /-- Some read of the position was answered ERROR. -/
  readFailed : Bool
  /-- SEAL: parity members failed at the position so far (R147). -/
  failedParity : Positions
  /-- The reads of the position are over and its writes have been made due. -/
  writing : Bool
  deriving DecidableEq, Repr

/-- An empty position context (R140). -/
def PositionContext.empty : PositionContext :=
  { damaged := [], chosen := [], received := [], due := [], readFailed := false, failedParity := [],
    writing := false }

/-- The Repair Engine's context (R137). -/
structure Engine where
  state : EngineState
  queue : List Job
  service : Option (Nat × JobKind)
  cursor : Option Nat
  context : PositionContext
  inFlight : List EngineRequest
  tokens : Nat
  /-- Time of the next refill event (R142); absent while no configuration is loaded. -/
  nextRefill : Option Nat
  /-- Number of the next engine request (the model's own, log 13). -/
  nextId : Nat
  deriving DecidableEq, Repr

/-! ## Concealment Unit -/

/-- The source of a concealed range (R163). -/
inductive Source where
  | slot (slot : Nat)
  | fill
  deriving DecidableEq, Repr

/-- A Concealment Table entry (R163). `checkOk`: its check bits agree (log 9). -/
structure ConcealEntry where
  target : Nat
  range : SectorRange
  source : Source
  checkOk : Bool
  deriving DecidableEq, Repr

/-- One CONCEALED tail write of a pending list (R170). -/
structure PendingTail where
  slot : Nat
  position : Nat
  frameNumber : Word32
  deriving DecidableEq, Repr

/-- A group's CONCEALED tails: its pending list and its outstanding count (R170). -/
structure TailWork where
  group : Nat
  serial : Nat
  pending : List PendingTail
  outstanding : Nat
  deriving DecidableEq, Repr

/-- The Concealment Unit. `work` stands in the order in which the groups entered CONCEALING. -/
structure Concealment where
  table : List ConcealEntry
  work : List TailWork
  deriving DecidableEq, Repr

/-! ## Channel Unit -/

/-- The read in flight for a channel (R78). A channel word read remembers whether RESUME made it,
since R79 judges the two differently. -/
inductive Fetch where
  | none
  | channelWord (atResume : Bool)
  | plan (addr : Nat)
  deriving DecidableEq, Repr

/-- A channel context (R78). -/
structure Channel where
  state : ChannelState
  role : Option Role
  window : Option Nat
  nextPlan : Option Nat
  fetch : Fetch
  discard : Bool
  occupied : Nat
  errorCode : ErrorCode
  lastResult : Option CommandResult
  plansLoaded : BitVec 16
  groupsRetired : BitVec 16
  signals : BitVec 16
  deriving DecidableEq, Repr

/-- A channel context after cold reset (R78). -/
def Channel.reset : Channel :=
  { state := .disabled, role := none, window := none, nextPlan := none, fetch := .none,
    discard := false, occupied := 0, errorCode := .none, lastResult := none, plansLoaded := 0,
    groupsRetired := 0, signals := 0 }

/-! ## Memory Port and Arbiter -/

/-- What the owner of a memory request needs to recognise its answer (R180). -/
inductive OwnerRef where
  /-- A passed recorder request, by recorder tag. -/
  | pass (tag : Nat)
  /-- The source read of a redirected read, by recorder tag. -/
  | sourceRead (tag : Nat)
  /-- A channel word read. -/
  | channelWord (channel : Fin 8)
  /-- A plan fetch. -/
  | planFetch (channel : Fin 8)
  /-- The status write of a rejected plan. -/
  | rejectedStatus (channel : Fin 8) (planAddress : Nat) (era : Nat)
  /-- The status write of a group. -/
  | status (group : Nat) (serial : Nat)
  /-- A CONCEALED tail write. -/
  | concealedTail (group : Nat) (serial : Nat) (channel : Fin 8) (groupNumber : Word32)
      (slot : Nat) (position : Nat) (era : Nat)
  /-- The configuration header read. -/
  | header
  /-- The report write of the post list's head. -/
  | report (ringEra : Nat)
  /-- A mirror beat: 0 the part's, 1 + c channel c's. -/
  | mirror (beat : Nat)
  /-- A fault page beat: 0 CONTAINED record, 1 UNCONTAINED record, 2 and 3 their next sets. -/
  | faultPage (beat : Nat)
  /-- A burst of an engine sector read. -/
  | engineRead (id : Nat) (burst : Nat)
  /-- A burst of an engine sector write. -/
  | engineWrite (id : Nat) (burst : Nat)
  /-- A REBUILT tail write. -/
  | engineTail (id : Nat)
  deriving DecidableEq, Repr

/-- The blocks that own memory requests (R180). -/
inductive Owner where
  | recorderPort | channelUnit | groupController | concealmentUnit | controlUnit | repairEngine
  deriving DecidableEq, Repr

/-- A request presented for the memory port (R182). -/
structure MemRequest where
  ref : OwnerRef
  kind : RequestKind
  addr : Nat
  length : Nat
  beats : List WriteBeat
  deriving DecidableEq, Repr

/-- A downstream tag table entry in use (R180). Class and owner are those of `ref` (R181). -/
structure TagEntry where
  ref : OwnerRef
  kind : RequestKind
  deriving DecidableEq, Repr

/-- A request handed to the memory under its tag (R183). -/
structure IssuedRequest where
  tag : Nat
  kind : RequestKind
  addr : Nat
  length : Nat
  beats : List WriteBeat
  deriving DecidableEq, Repr

/-- The Memory Port and Arbiter. -/
structure MemoryPort where
  passList : List MemRequest
  serviceList : List MemRequest
  engineList : List MemRequest
  tags : Table TagEntry
  lastServed : RequestClass
  /-- Requests handed to the memory, oldest first (log 6). -/
  issued : List IssuedRequest
  deriving DecidableEq, Repr

/-! ## Control and Report Unit -/

/-- The loaded configuration (R197, R207). -/
structure Configuration where
  arenaBase : Nat
  slotCount : Nat
  /-- N, sectors per slot. -/
  sectors : Nat
  ringSize : Nat
  mode : ArbitrationMode
  ringInterrupt : Bool
  containedInterrupt : Bool
  ringBase : Nat
  tokenCeiling : Nat
  refillAmount : Nat
  refillPeriod : Nat
  holdLimit : Nat
  wearThreshold : Nat
  fillPattern : Beat
  deriving DecidableEq, Repr

/-- The detail of a fault (R203, R208). -/
inductive FaultDetail where
  | errorCode (code : ErrorCode)
  | request (tag : Nat) (kind : RequestKind)
  | report (kind : ReportKind)
  | engineRead (job : JobKind) (member : MemberKind)
  | engineWrite (job : JobKind) (member : MemberKind) (tail : Bool)
  | planAddress (addr : Nat)
  | room (needed : Nat) (entriesFree : Nat)
  | malformed (addr : Nat) (tag : Nat)
  | members (count : Nat)
  | groupIndex (index : Nat)
  deriving DecidableEq, Repr

/-- A fault as it is raised, and as a first record holds it (R203). -/
structure FaultRecord where
  kind : FaultKind
  channel : Option (Fin 8)
  groupNumber : Option Word32
  slot : Option Nat
  sector : Option Nat
  detail : Option FaultDetail
  deriving DecidableEq, Repr

/-- One class of the Fault Log (R203): `none` is an invalid first record. The next set holds each
kind at most once, in no order. -/
structure FaultLog where
  first : Option FaultRecord
  next : List FaultKind
  deriving DecidableEq, Repr

/-- The reports, with their contents (R202). -/
inductive Report where
  | groupDone (channel : Fin 8) (groupNumber : Word32) (outcome : GroupOutcome) (rounds : Nat)
      (counts : List Nat) (misplaced worn : Nat)
  | reread (channel : Fin 8) (groupNumber : Word32) (slot : Nat) (kind : MemberKind)
      (frame : Word32) (round : Nat) (ranges : List SectorRange)
  | worn (channel : Fin 8) (groupNumber : Word32) (slot : Nat) (kind : MemberKind)
      (frame : Word32) (total : Nat)
  | signal (channel : Fin 8) (groupNumber : Word32) (firstFrame : Word32)
  | frameStale (slot : Nat) (channel : Option (Fin 8)) (kind : Option MemberKind)
      (frame : Option Word32) (groupNumber : Option Word32) (worn : Bool)
  | withdrawn (slot : Nat) (ranges : List SectorRange) (channel : Option (Fin 8))
      (groupNumber : Option Word32) (frame : Option Word32)
  | holdExpired (slot : Nat) (range : Option SectorRange) (channel : Option (Fin 8))
      (groupNumber : Option Word32)
  | channelState (channel : Fin 8) (state : ChannelState) (error : ErrorCode)
  | fault (faultClass : FaultClass) (kind : FaultKind) (channel : Option (Fin 8))
      (groupNumber : Option Word32) (slot : Option Nat) (sector : Option Nat)
  deriving DecidableEq, Repr

/-- The Control and Report Unit. -/
structure Control where
  part : PartState
  /-- The fault-entry steps are in progress (R199). -/
  entering : Bool
  /-- A clear taken during fault entry is noted (R198). -/
  clearNoted : Bool
  config : Option Configuration
  /-- Load pending; the Bool says its answer is to be discarded (R195, R198). -/
  loadPending : Option Bool
  writing : Bool
  loadResult : LoadResult
  writeIndex : Nat
  taken : Nat
  posts : List Report
  /-- A write of the post list's head has been presented and not answered (R200). -/
  reportOut : Bool
  overflow : Bool
  takenRefused : Bool
  contained : FaultLog
  uncontained : FaultLog
  /-- Warm clears and fault entries begun (the model's own, log 13). -/
  era : Nat
  /-- Warm clears begun and configurations loaded (the model's own, log 13). -/
  ringEra : Nat
  deriving DecidableEq, Repr

/-! ## The model's own -/

/-- A storage upset: the check bits of one stored entry cease to agree (log 9). -/
inductive Upset where
  | frame (slot : Nat)
  | group (index : Nat)
  | conceal (place : Nat)
  deriving DecidableEq, Repr

/-- Internal work of the step in progress (log 11): what a rule takes "in the same step" and in order
after what is being taken. -/
inductive Task where
  /-- Take the request the recorder presents first, if the port accepts (R44, R45). -/
  | accept
  /-- Classify an accepted request (R47, R57). -/
  | classify (tag : Nat)
  /-- Present an accepted request as PASS (R49). -/
  | present (tag : Nat)
  /-- Offer an arrival to a group (R54). -/
  | arrive (group : Nat) (arrival : Arrival)
  /-- Go on with a release pass: the tags of the entries marked in it and not yet reached (R68). -/
  | releasePass (marked : List Nat)
  /-- Take the CHECK of a group (R122). -/
  | check (group : Nat)
  /-- Retire a group (R110, R132). -/
  | retire (group : Nat)
  /-- Issue a group's status write (R101). -/
  | statusWrite (group : Nat)
  /-- Take a job into service if the engine is IDLE (R140). -/
  | takeJob
  /-- Take up the position the cursor names (R145). -/
  | takeUp
  /-- Advance the cursor past a finished position (R145). -/
  | advance
  /-- Enter CONCEALING (R165). -/
  | conceal (group : Nat)
  /-- Test whether a group's concealment is complete (R171). -/
  | concealed (group : Nat)
  /-- Abandon a live group on its channel's ABORT (R87). -/
  | abandon (group : Nat)
  /-- Complete the abandonment of a group (R31). -/
  | abandoned (group : Nat)
  /-- Test whether a DRAINING or CLOSING channel is DISABLED (R86, R87). -/
  | disableTest (channel : Fin 8)
  /-- Act on a trigger (R192). -/
  | trigger (trigger : Trigger)
  deriving DecidableEq, Repr

/-! ## The state -/

/-- The state of the part and the commands waiting for it. -/
structure State where
  pins : Pins
  port : RecorderPort
  map : FrameMap
  groups : GroupTable
  holds : List Held
  engine : Engine
  conceal : Concealment
  channels : Vector Channel 8
  memPort : MemoryPort
  control : Control
  /-- The 1 µs timebase (R63). -/
  time : Nat
  /-- How many free values have been drawn: the next one is `Config.freeOrder drawn` or
  `Config.freeBeat drawn` (the model's own, logs 8 and 20). -/
  drawn : Nat
  /-- Upsets still to strike (log 9). -/
  upsets : List Upset
  /-- Work of the step in progress, next first (log 11). -/
  agenda : List Task
  /-- Commands waiting, first in first out. -/
  pending : List Instr
  deriving DecidableEq, Repr

/-- Why the part stops in the model. -/
inductive Fault where
  /-- Raised by PLAN_FETCH_ANSWER alone: a plan that passes every check before its claim finds no free
  Group Table entry. R90 says this never happens ("A valid plan therefore always finds a free Group
  Table entry"), so the spec gives it no effect. Safe: the model stops where the spec says nothing. -/
  | groupTableFull
  deriving DecidableEq, Repr

/-- Why the model has no meaning for a command. -/
inductive Refusal where
  /-- Raised by an arm of `exec` whose command has no meaning yet; safe. No arm raises it. -/
  | notModelled (mnemonic : String)
  deriving DecidableEq, Repr

/-- The part right after RST_N is released (R194), every block at its cold-reset values: R40, R46,
R77, R78, R115, R136, R161, R178, R191, R194. CA_SEL reads 0 and the timebase 0 (DESIGN CHOICE,
logs 1 and 3). -/
def State.reset : State :=
  { pins := { resetLow := false, caSel := 0, irqLow := false }
    port := { accepted := [], presented := [], nextSeq := 0, sent := [] }
    map := { entries := [], pendingSearch := [], search := none }
    groups := { entries := [], nextSerial := 0 }
    holds := []
    engine := { state := .idle, queue := [], service := none, cursor := none,
                context := PositionContext.empty, inFlight := [], tokens := 0, nextRefill := none,
                nextId := 0 }
    conceal := { table := [], work := [] }
    channels := Vector.replicate 8 Channel.reset
    memPort := { passList := [], serviceList := [], engineList := [], tags := [],
                 lastServed := .engine, issued := [] }
    control := { part := .blank, entering := false, clearNoted := false, config := none,
                 loadPending := none, writing := false, loadResult := .none, writeIndex := 0,
                 taken := 0, posts := [], reportOut := false, overflow := false,
                 takenRefused := false, contained := { first := none, next := [] },
                 uncontained := { first := none, next := [] }, era := 0, ringEra := 0 }
    time := 0
    drawn := 0
    upsets := []
    agenda := []
    pending := [] }

end Sys2Proof.Machine
end

