-- ==== Sys2Proof/Machine/Extent.lean ====
section
/-! DEFINITION. Position sets and damage extents: insertion (R22), removal (R23), and the ranges of a set. -/
namespace Sys2Proof.Machine

/-! ## Sets of positions -/

/-- Put a position into a rising list, once. -/
def Positions.insert (s : Nat) : Positions → Positions
  | [] => [s]
  | p :: ps => if s < p then s :: p :: ps else if s = p then p :: ps else p :: Positions.insert s ps

/-- Put every position of a list into a set. -/
def Positions.insertAll (news : List Nat) (ps : Positions) : Positions :=
  news.foldl (fun acc s => Positions.insert s acc) ps

/-- The positions 0 to N - 1 for which a test holds. -/
def Positions.below (n : Nat) (p : Nat → Bool) : Positions := (List.range n).filter p

/-! ## Ranges -/

/-- The position after the last one of a range. -/
def SectorRange.stop (r : SectorRange) : Nat := r.first + r.count

/-- Whether a range holds a position (R21). -/
def SectorRange.holds (r : SectorRange) (s : Nat) : Bool := decide (r.first ≤ s) && decide (s < r.stop)

/-- The positions of a range, rising. -/
def SectorRange.positions (r : SectorRange) : Positions := (List.range r.count).map (r.first + ·)

/-- Whether an extent holds a position (R21). -/
def Extent.holds (ext : Extent) (s : Nat) : Bool := ext.any (·.holds s)

/-- The positions of an extent, rising. -/
def Extent.positions (ext : Extent) : Positions := ext.flatMap SectorRange.positions

/-- The whole frame, one range (R21). -/
def Extent.whole (n : Nat) : Extent := [{ first := 0, count := n }]

/-- The runs of consecutive positions of a rising list, as ranges (R119). -/
def Positions.runs : Positions → List SectorRange
  | [] => []
  | s :: ps =>
    match Positions.runs ps with
    | [] => [{ first := s, count := 1 }]
    | r :: rs =>
      if r.first = s + 1 then { first := s, count := r.count + 1 } :: rs
      else { first := s, count := 1 } :: r :: rs

/-! ## Insertion (R22) -/

/-- A range meets the new one when they overlap or touch: it ends at `f - 1` or later and starts at
`f + c` or earlier (R22). -/
def SectorRange.meets (r new : SectorRange) : Bool :=
  decide (new.first ≤ r.stop) && decide (r.first ≤ new.stop)

/-- One range spanning two (R22). -/
def SectorRange.span (a b : SectorRange) : SectorRange :=
  let first := min a.first b.first
  { first := first, count := max a.stop b.stop - first }

/-- The least list of ranges for the union of an extent and a range, before the collapse test (R22). -/
def Extent.union (ext : Extent) (new : SectorRange) : Extent :=
  let before := ext.filter (fun r => decide (r.stop < new.first))
  let after := ext.filter (fun r => decide (new.stop < r.first))
  let merged := (ext.filter (·.meets new)).foldl SectorRange.span new
  before ++ merged :: after

/-- Inserting a range: the union, or the whole frame if that needs more than four ranges (R22). -/
def Extent.insert (n : Nat) (ext : Extent) (new : SectorRange) : Extent :=
  let u := ext.union new
  if u.length ≤ Config.extentCapacity then u else Extent.whole n

/-- Inserting several ranges one after another (R22). -/
def Extent.insertAll (n : Nat) (ext : Extent) (news : List SectorRange) : Extent :=
  news.foldl (Extent.insert n) ext

/-! ## Removal (R23) -/

/-- What a removal leaves of one range that holds the position. -/
def SectorRange.without (r : SectorRange) (s : Nat) : List SectorRange :=
  let low : SectorRange := { first := r.first, count := s - r.first }
  let high : SectorRange := { first := s + 1, count := r.stop - (s + 1) }
  (if low.count = 0 then [] else [low]) ++ (if high.count = 0 then [] else [high])

/-- Removing a position: the extent after, and whether the removal is handed back as removed (`true`)
or kept (`false`), which is when the split would need a fifth range (R23). -/
def Extent.remove (ext : Extent) (s : Nat) : Extent × Bool :=
  let after := ext.flatMap (fun r => if r.holds s then r.without s else [r])
  if after.length ≤ Config.extentCapacity then (after, true) else (ext, false)

/-! ## Form (R21) -/

/-- The ranges are non-empty, rising, disjoint, non-adjacent and within 0 to N - 1; `low` is the least
first position allowed. -/
def Extent.rising (n : Nat) : Nat → Extent → Bool
  | _, [] => true
  | low, r :: rs =>
    decide (low ≤ r.first) && decide (1 ≤ r.count) && decide (r.stop ≤ n) &&
      Extent.rising n (r.stop + 1) rs

/-- A well-formed damage extent (R21). -/
def Extent.wf (n : Nat) (ext : Extent) : Bool :=
  decide (ext.length ≤ Config.extentCapacity) && Extent.rising n 0 ext

end Sys2Proof.Machine
end

