-- ==== Sys2Proof/Machine/Operands.lean ====
section
/-! DEFINITION. Reading what a burst carries: fields of beats, the arena's geometry (R1 to R4), tails (R5,
R6), the configuration header and channel words (R207), plan blocks (R93) and trigger lists (R48). -/
namespace Sys2Proof.Machine

/-! ## Fields of beats -/

/-- The field of `width` bytes at byte `offset` of a beat, least significant byte first. -/
def Beat.field (b : Beat) (offset width : Nat) : Nat :=
  b.toNat / 2 ^ (8 * offset) % 2 ^ (8 * width)

/-- The same over the beats of a burst; no field the spec lays out crosses a beat. A beat the memory
did not return reads as zero (log 24). -/
def beatsField (bs : List Beat) (offset width : Nat) : Nat :=
  Beat.field (bs.getD (offset / Config.beatBytes) 0) (offset % Config.beatBytes) width

/-- The low 36 bits of an 8-byte address field (R79, R93, R207). -/
def addressField (bs : List Beat) (offset : Nat) : Nat :=
  beatsField bs offset 8 % Config.spaceBytes

/-- The low five bits of a recorder address are not carried and are taken as zero (R41). -/
def alignBeat (a : Addr) : Nat := a.toNat / Config.beatBytes * Config.beatBytes

/-! ## The arena (R1 to R4) -/

/-- (N + 1) × 4096 bytes (R1). -/
def Configuration.stride (c : Configuration) : Nat := (c.sectors + 1) * Config.pageBytes

/-- The start of slot k (R1). -/
def Configuration.slotStart (c : Configuration) (k : Nat) : Nat := c.arenaBase + k * c.stride

/-- The arena end (R1). -/
def Configuration.arenaEnd (c : Configuration) : Nat := c.arenaBase + c.slotCount * c.stride

/-- Whether an address lies in the arena (R1). -/
def Configuration.inArena (c : Configuration) (a : Nat) : Bool :=
  decide (c.arenaBase ≤ a) && decide (a < c.arenaEnd)

/-- The address of a sector's payload page (R3). -/
def Configuration.payloadAddr (c : Configuration) (slot s : Nat) : Nat :=
  c.slotStart slot + s * Config.pageBytes

/-- The address of a position's tail (R3). -/
def Configuration.tailAddr (c : Configuration) (slot s : Nat) : Nat :=
  c.slotStart slot + c.sectors * Config.pageBytes + s * Config.beatBytes

/-- Where an arena address lies (R4). -/
structure Place where
  slot : Nat
  page : Page
  offset : Nat
  deriving DecidableEq, Repr

/-- Resolving an arena address (R4). -/
def Configuration.resolve (c : Configuration) (a : Nat) : Place :=
  let slotOffset := a - c.arenaBase
  let inSlot := slotOffset % c.stride
  let page := inSlot / Config.pageBytes
  { slot := slotOffset / c.stride
    page := if page < c.sectors then .payload page else .tail
    offset := inSlot % Config.pageBytes }

/-- The position touched by payload (R50). -/
def Place.byPayload (p : Place) : Option Nat :=
  match p.page with
  | .payload s => some s
  | .tail => none

/-- The positions touched by tail by a burst of `length` beats: each position whose tail one of its
beats covers (R50). The unused region belongs to none (R3). -/
def Configuration.byTail (c : Configuration) (p : Place) (length : Nat) : Positions :=
  match p.page with
  | .payload _ => []
  | .tail =>
    ((List.range length).map (p.offset / Config.beatBytes + ·)).filter (fun s => decide (s < c.sectors))

/-! ## Tails (R5, R6) -/

/-- The verdict of a code; every other code is read as UNREADABLE (R6). -/
def Verdict.ofCode : Nat → Verdict
  | 1 => .clean
  | 2 => .corrected
  | 3 => .unreadable
  | 4 => .skipped
  | 5 => .rebuilt
  | 6 => .concealed
  | _ => .unreadable

/-- The code the 2416 writes for a verdict (R6). -/
def Verdict.code : Verdict → Nat
  | .clean => 1
  | .corrected => 2
  | .unreadable => 3
  | .skipped => 4
  | .rebuilt => 5
  | .concealed => 6

/-- Whether a verdict is good (R6). -/
def Verdict.good : Verdict → Bool
  | .clean | .corrected | .rebuilt => true
  | .unreadable | .skipped | .concealed => false

/-- The fields of a tail that the 2416 reads (R5). -/
structure Tail where
  frameNumber : Word32
  sectorIndex : Nat
  verdict : Verdict
  count : Nat
  deriving DecidableEq, Repr

/-- Reading a tail (R5). -/
def Tail.ofBeat (b : Beat) : Tail :=
  { frameNumber := BitVec.ofNat 32 (Beat.field b 0 4)
    sectorIndex := Beat.field b 4 2
    verdict := Verdict.ofCode (Beat.field b 6 1)
    count := Beat.field b 7 1 }

/-! ## Expected frame numbers (R10) -/

/-- The expected frame number of a member, by its kind and its place in the group (R10). -/
def expectedFrame (firstFrame groupNumber : Word32) (kind : MemberKind) (place : Nat) : Word32 :=
  match kind with
  | .data => firstFrame + BitVec.ofNat 32 place
  | .parity _ => groupNumber

/-- The kind of the member at a place of a group with D data members (R25). -/
def memberKind (d place : Nat) : MemberKind := if place < d then .data else .parity (place - d)

/-! ## The control area (R192) -/

/-- The base of the control area: the strap value × 4 GiB (R192). -/
def controlBase (caSel : BitVec 4) : Nat := caSel.toNat * Config.bankBytes

/-- The address of a channel word (R192). -/
def channelWordAddr (base : Nat) (c : Fin 8) : Nat :=
  base + Config.channelWords + c.val * Config.channelWordBytes

/-- The trigger words with their addresses, in ascending address order (R48, R192, R208). -/
def triggerWords (base : Nat) : List (Nat × TriggerWord) :=
  [(base + Config.loadWord, .load), (base + Config.clearWord, .clear)] ++
  (List.finRange 8).map (fun c => (channelWordAddr base c + Config.commandField, .command c)) ++
  [(base + Config.takenWord, .taken), (base + Config.containedClearWord, .containedClear),
   (base + Config.uncontainedClearWord, .uncontainedClear)]

/-- The value a write burst gives to the 4-byte word at an address, if it enables all four bytes. -/
def writtenWord (addr : Nat) (beats : List WriteBeat) (word : Nat) : Option Word32 :=
  if addr ≤ word then
    match beats[(word - addr) / Config.beatBytes]? with
    | some b =>
      let k := (word - addr) % Config.beatBytes
      if b.enables.getLsbD k && b.enables.getLsbD (k + 1) && b.enables.getLsbD (k + 2) &&
          b.enables.getLsbD (k + 3) then
        some (BitVec.ofNat 32 (Beat.field b.data k 4))
      else none
    | none => none
  else none

/-- The trigger list of a write: every trigger word all of whose bytes it writes, in ascending address
order, with the value written (R48). -/
def triggerList (base addr : Nat) (beats : List WriteBeat) : List Trigger :=
  (triggerWords base).filterMap (fun w =>
    (writtenWord addr beats w.1).map (fun v => { word := w.2, value := v }))

/-! ## The configuration header (R207) -/

/-- The header as read, before validation (R207). -/
structure Header where
  arenaBase : Nat
  slotCount : Nat
  sectors : Nat
  ringSize : Nat
  mode : Nat
  ringInterrupt : Bool
  containedInterrupt : Bool
  ringBase : Nat
  tokenCeiling : Nat
  refillAmount : Nat
  refillPeriod : Nat
  holdLimit : Nat
  wearThreshold : Nat
  fillPattern : Beat
  deriving DecidableEq, Repr

/-- Reading the header's 8 beats (R207). -/
def Header.ofBeats (bs : List Beat) : Header :=
  { arenaBase := addressField bs 0x00
    slotCount := beatsField bs 0x08 2
    sectors := beatsField bs 0x0A 2
    ringSize := beatsField bs 0x0C 2
    mode := beatsField bs 0x0E 1
    ringInterrupt := (beatsField bs 0x0F 1).testBit 0
    containedInterrupt := (beatsField bs 0x0F 1).testBit 1
    ringBase := addressField bs 0x10
    tokenCeiling := beatsField bs 0x18 2
    refillAmount := beatsField bs 0x1A 2
    refillPeriod := beatsField bs 0x1C 2
    holdLimit := beatsField bs 0x1E 2
    wearThreshold := beatsField bs 0x20 2
    fillPattern := bs.getD 2 0 }

/-! ## Channel words (R79, R207) -/

/-- A channel word as read. -/
structure ChannelWord where
  head : Nat
  role : Nat
  window : Nat
  deriving DecidableEq, Repr

/-- Reading a channel word's 2 beats (R207). -/
def ChannelWord.ofBeats (bs : List Beat) : ChannelWord :=
  { head := addressField bs 0x00, role := beatsField bs 0x08 1, window := beatsField bs 0x09 1 }

/-- The role of a role code: RECORD 1, RESTORE 2 (R79). -/
def Role.ofCode : Nat → Option Role
  | 1 => some .record
  | 2 => some .restore
  | _ => none

/-- An address field of zero is NULL (R79, R93). -/
def nonNull (a : Nat) : Option Nat := if a = 0 then none else some a

/-! ## Plan blocks (R93) -/

/-- A plan block as read. -/
structure PlanBlock where
  link : Nat
  groupNumber : Word32
  firstFrame : Word32
  dataCount : Nat
  parityCount : Nat
  signal : Bool
  last : Bool
  audit : Bool
  policy : Nat
  reach : Nat
  rereadBudget : Nat
  gatherLimit : Nat
  rereadLimit : Nat
  slots : List Nat
  deriving DecidableEq, Repr

/-- Reading a plan block's 4 beats (R93). `slots` holds all fifteen entries of the slot list. -/
def PlanBlock.ofBeats (bs : List Beat) : PlanBlock :=
  { link := addressField bs 0
    groupNumber := BitVec.ofNat 32 (beatsField bs 24 4)
    firstFrame := BitVec.ofNat 32 (beatsField bs 28 4)
    dataCount := beatsField bs 32 1
    parityCount := beatsField bs 33 1
    signal := (beatsField bs 34 1).testBit 0
    last := (beatsField bs 34 1).testBit 1
    audit := (beatsField bs 34 1).testBit 2
    policy := beatsField bs 35 1
    reach := beatsField bs 36 1
    rereadBudget := beatsField bs 37 1
    gatherLimit := beatsField bs 38 2
    rereadLimit := beatsField bs 40 2
    slots := (List.range 15).map (fun i => beatsField bs (42 + 2 * i) 2) }

/-- The first D + P entries of the slot list (R93). -/
def PlanBlock.memberSlots (p : PlanBlock) : List Nat := p.slots.take (p.dataCount + p.parityCount)

/-- The policy of a policy code (R93). -/
def Policy.ofCode : Nat → Policy
  | 0 => .holdPrevious
  | 1 => .fill
  | _ => .poison

/-- What a RESTORE plan says of its repair (R93, R97). -/
def PlanBlock.terms (p : PlanBlock) : RestoreTerms :=
  { policy := Policy.ofCode p.policy, reach := p.reach, audit := p.audit,
    rereadBudget := p.rereadBudget, gatherLimit := p.gatherLimit
    rereadLimit := p.rereadLimit }

end Sys2Proof.Machine
end

