-- ==== Sys2Proof/Machine/Formats.lean ====
section
/-! DEFINITION. What the 2416 writes to frame memory: tails (R7), status words (R100), mirror and fault page
beats (R208) and report entries (R209). -/
namespace Sys2Proof.Machine

/-! ## Packing -/

/-- A field to be written: byte offset, width in bytes, value. -/
abbrev Field := Nat × Nat × Nat

/-- One field placed in a beat, least significant byte first; a value too wide keeps its low bytes. -/
def placeField (f : Field) : Beat := BitVec.ofNat 256 (f.2.2 % 2 ^ (8 * f.2.1) * 2 ^ (8 * f.1))

/-- A beat holding the fields given and zero elsewhere. -/
def packFields (fs : List Field) : Beat := fs.foldl (fun acc f => acc ||| placeField f) 0

/-- The byte enables of bytes `lo` to `hi - 1`. -/
def enableBytes (lo hi : Nat) : Enables := BitVec.ofNat 32 (2 ^ hi - 2 ^ lo)

/-- Every byte enabled. -/
def allEnabled : Enables := BitVec.allOnes 32

/-- The bits of a list, lowest first, as a number. -/
def bitsNat : List Bool → Nat
  | [] => 0
  | b :: bs => (if b then 1 else 0) + 2 * bitsNat bs

/-! ## Codes -/

/-- R208. -/
def PartState.code : PartState → Nat
  | .blank => 0 | .configured => 1 | .clearing => 2 | .faulted => 3

/-- R208. -/
def LoadResult.code : LoadResult → Nat
  | .none => 0 | .ok => 1 | .busy => 2 | .readError => 3 | .badGeometry => 4 | .badArena => 5
  | .badRing => 6 | .badField => 7

/-- R208. -/
def ChannelState.code : ChannelState → Nat
  | .disabled => 0 | .loading => 1 | .active => 2 | .waiting => 3 | .draining => 4 | .stopped => 5
  | .closing => 6

/-- R100. -/
def ErrorCode.code : ErrorCode → Nat
  | .none => 0 | .readError => 1 | .counts => 2 | .field => 3 | .slotRange => 4 | .slotRepeat => 5
  | .slotBusy => 6 | .align => 7

/-- R208; an absent result is 0. -/
def commandResultCode : Option CommandResult → Nat
  | none => 0 | some .accepted => 1 | some .refusedState => 2 | some .unknown => 3 | some .blank => 4

/-- R100. -/
def GroupOutcome.code : GroupOutcome → Nat
  | .sealed => 1 | .sealedDegraded => 2 | .intact => 3 | .restored => 4 | .patched => 5
  | .failed => 6 | .abandoned => 7 | .rejected => 8

/-- R208. -/
def FaultKind.code : FaultKind → Nat
  | .planError => 1 | .holdExpired => 2 | .holdOverflow => 3 | .ringOverflow => 4
  | .engineReadError => 5 | .engineWriteError => 6 | .serviceWriteError => 7 | .concealFull => 8
  | .malformed => 9 | .mapParity => 10 | .mapMembership => 11 | .groupTableParity => 12
  | .concealTableParity => 13

/-- R203. -/
def FaultKind.faultClass : FaultKind → FaultClass
  | .mapMembership | .groupTableParity | .concealTableParity => .uncontained
  | .planError | .holdExpired | .holdOverflow | .ringOverflow | .engineReadError
  | .engineWriteError | .serviceWriteError | .concealFull | .malformed | .mapParity => .contained

/-- R209. -/
def FaultClass.code : FaultClass → Nat
  | .contained => 0 | .uncontained => 1

/-- R209. -/
def ReportKind.code : ReportKind → Nat
  | .groupDone => 1 | .reread => 2 | .worn => 3 | .signal => 4 | .frameStale => 5 | .withdrawn => 6
  | .holdExpired => 7 | .channelState => 8 | .fault => 9

/-- R208. -/
def RequestKind.code : RequestKind → Nat
  | .read => 0 | .write => 1

/-- R208. -/
def JobKind.code : JobKind → Nat
  | .seal => 0 | .audit => 1 | .rebuild => 2

/-- DATA 0, PARITY-j 1 + j (R208). -/
def MemberKind.code : MemberKind → Nat
  | .data => 0 | .parity j => 1 + j

/-! ## Tails the 2416 writes (R7) -/

/-- The one write beat of a REBUILT or CONCEALED tail: bytes 0 to 7 enabled (R7). -/
def tailBeat (frameNumber : Word32) (position : Nat) (verdict : Verdict) : WriteBeat :=
  { data := packFields [(0, 4, frameNumber.toNat), (4, 2, position), (6, 1, verdict.code), (7, 1, 0)]
    enables := enableBytes 0 8 }

/-! ## Status words (R100) -/

/-- A count as the status word and the GROUP_DONE report hold it: at 4095 if it would be larger
(R100). -/
def heldCount (n : Nat) : Nat := min n 4095

/-- The positions at which at least one parity member of a RECORD group failed (R110). -/
def Group.failedPositions (g : Group) : Positions :=
  g.members.foldl (fun acc m => Positions.insertAll m.failed acc) []

/-- The eight counts of a status word, in its order (R100): those of a RESTORE record (R116), or of a RECORD group
the two of R110, every other 0. -/
def Group.statusCounts (g : Group) : List Nat :=
  (match g.role with
    | .record => [0, 0, 0, g.madeLost, 0, 0, 0, g.failedPositions.length]
    | .restore =>
      [g.counts.damagedAtCheck, g.counts.rebuilt, g.counts.concealed, g.counts.lost,
       g.counts.transient, g.counts.persistent, g.counts.silentFound, g.beyond.length]).map heldCount

/-- Eight counts packed two to three bytes, the first of each pair in the lower 12 bits, from a byte
on (R100). -/
def packCounts (offset : Nat) (cs : List Nat) : List Field :=
  (List.range 4).map (fun i =>
    (offset + 3 * i, 3, cs.getD (2 * i) 0 + 4096 * cs.getD (2 * i + 1) 0))

/-- The one write beat of a status write: the status word in bytes 8 to 23, which alone are enabled
(R100, R101). -/
def statusBeat (outcome : GroupOutcome) (error : ErrorCode) (rounds : Nat) (counts : List Nat) :
    WriteBeat :=
  { data := packFields ([(8, 1, 1), (9, 1, outcome.code), (10, 1, error.code), (11, 1, rounds)] ++
      packCounts 12 counts)
    enables := enableBytes 8 24 }

/-! ## The status mirror (R208) -/

/-- Whether no plan block of the channel is being read (R82). -/
def Channel.safe (c : Channel) : Bool := c.state != .loading

/-- The part beat (R208). -/
def Control.partBeat (c : Control) : Beat :=
  packFields [(0, 1, c.part.code), (1, 1, c.loadResult.code), (2, 2, c.writeIndex),
    (4, 1, c.overflow.toNat), (5, 1, c.takenRefused.toNat)]

/-- A channel's beat (R208). -/
def Channel.beat (c : Channel) : Beat :=
  packFields [(0, 1, c.state.code), (1, 1, c.safe.toNat), (2, 1, c.occupied),
    (3, 1, c.errorCode.code), (4, 1, commandResultCode c.lastResult),
    (6, 2, c.plansLoaded.toNat), (8, 2, c.groupsRetired.toNat), (10, 2, c.signals.toNat)]

/-! ## The fault page (R208) -/

/-- The detail values of a fault, each with its width in bytes, in the order listed (R203, R208). -/
def FaultDetail.values : FaultDetail → List (Nat × Nat)
  | .errorCode c => [(1, c.code)]
  | .request t k => [(1, t), (1, k.code)]
  | .report k => [(1, k.code)]
  | .engineRead j m => [(1, j.code), (1, m.code)]
  | .engineWrite j m t => [(1, j.code), (1, m.code), (1, t.toNat)]
  | .planAddress a => [(5, a)]
  | .room n f => [(1, n), (1, f)]
  | .malformed a t => [(5, a), (1, t)]
  | .members n => [(1, n)]
  | .groupIndex i => [(1, i)]

/-- Values placed one after another from a byte on (R208). -/
def placeValues : Nat → List (Nat × Nat) → List Field
  | _, [] => []
  | o, (w, v) :: rest => (o, w, v) :: placeValues (o + w) rest

/-- The fields of a class's record beat whose content the spec states: `valid` always; of a valid record
its kind, the presence bits and the fields it holds (R208). -/
def FaultLog.recordFields (l : FaultLog) : List Field :=
  match l.first with
  | none => [(0, 1, 0)]
  | some r =>
    [(0, 1, 1), (1, 1, r.kind.code),
      (3, 1, bitsNat [r.channel.isSome, r.groupNumber.isSome, r.slot.isSome, r.sector.isSome,
        r.detail.isSome])] ++
    (r.channel.map (fun c => ((2, 1, c.val) : Field))).toList ++
    (r.groupNumber.map (fun g => ((4, 4, g.toNat) : Field))).toList ++
    (r.slot.map (fun k => ((8, 2, k) : Field))).toList ++
    (r.sector.map (fun k => ((10, 2, k) : Field))).toList ++
    placeValues 16 ((r.detail.map FaultDetail.values).getD [])

/-- The bytes R208 lists for a record beat. -/
def recordBytes : List Field :=
  [(0, 1, 255), (1, 1, 255), (2, 1, 255), (3, 1, 255), (4, 4, 4294967295), (8, 2, 65535),
    (10, 2, 65535), (16, 8, 18446744073709551615)]

/-- Every bit of the fields given set. -/
def fieldMask (fs : List Field) : Beat := packFields (fs.map (fun f => (f.1, f.2.1, 2 ^ (8 * f.2.1) - 1)))

/-- A class's record beat: the stated fields; in the other bytes R208 lists, the free value given; zero
elsewhere (R208; log 20). -/
def FaultLog.recordBeat (l : FaultLog) (free : Beat) : Beat :=
  packFields l.recordFields |||
    (free &&& (fieldMask recordBytes &&& ~~~ fieldMask l.recordFields))

/-- A class's next-set beat: bit k for kind code k (R208). -/
def FaultLog.nextBeat (l : FaultLog) : Beat :=
  packFields [(0, 2, bitsNat ((List.range 14).map (fun k => l.next.any (fun f => f.code == k))))]

/-! ## Report entries (R209) -/

/-- A report's kind (R202). -/
def Report.kind : Report → ReportKind
  | .groupDone .. => .groupDone
  | .reread .. => .reread
  | .worn .. => .worn
  | .signal .. => .signal
  | .frameStale .. => .frameStale
  | .withdrawn .. => .withdrawn
  | .holdExpired .. => .holdExpired
  | .channelState .. => .channelState
  | .fault .. => .fault

/-- A report's channel, if it has one (R202). -/
def Report.channel : Report → Option (Fin 8)
  | .groupDone c .. => some c
  | .reread c .. => some c
  | .worn c .. => some c
  | .signal c .. => some c
  | .frameStale _ c .. => c
  | .withdrawn _ _ c .. => c
  | .holdExpired _ _ c _ => c
  | .channelState c .. => some c
  | .fault _ _ c .. => c

/-- A report's fields before packing (R209). Absent fields are written as zero, their presence bits
clear. -/
structure EntryFields where
  qualifier : Nat
  groupNumber : Option Word32
  slot : Option Nat
  value : Nat
  frame : Option Word32
  ranges : List SectorRange
  deriving DecidableEq, Repr

/-- The common placement of a report entry (R209). Bytes 24 to 31, for which R209 lists no field, are written as zero
(DESIGN CHOICE, log 48). -/
def packEntry (kind : ReportKind) (channel : Option (Fin 8)) (e : EntryFields) : Beat :=
  packFields ([(0, 1, kind.code), (1, 1, (channel.map (·.val)).getD 0),
    (2, 1, bitsNat [channel.isSome, e.groupNumber.isSome, e.slot.isSome, e.frame.isSome,
      !e.ranges.isEmpty]),
    (3, 1, e.qualifier), (4, 4, (e.groupNumber.map (·.toNat)).getD 0), (8, 2, e.slot.getD 0),
    (10, 2, e.value), (12, 4, (e.frame.map (·.toNat)).getD 0)] ++
    placeValues 16 (e.ranges.flatMap (fun r => [(1, r.first), (1, r.count)])))

/-- The 32-byte entry of a report (R209), its bytes 24 to 31 zero (DESIGN CHOICE, log 48). -/
def Report.beat (r : Report) : Beat :=
  match r with
  | .groupDone c gn o rounds counts misplaced wornFrames =>
    packFields ([(0, 1, ReportKind.groupDone.code), (1, 1, c.val), (2, 1, bitsNat [true, true]),
      (3, 1, o.code), (4, 4, gn.toNat), (8, 2, misplaced), (10, 1, rounds), (11, 1, wornFrames)] ++
      packCounts 12 counts)
  | .reread c gn slot k f round ranges =>
    packEntry .reread (some c)
      { qualifier := k.code, groupNumber := some gn, slot := some slot, value := round,
        frame := some f, ranges := ranges }
  | .worn c gn slot k f total =>
    packEntry .worn (some c)
      { qualifier := k.code, groupNumber := some gn, slot := some slot, value := total,
        frame := some f, ranges := [] }
  | .signal c gn f =>
    packEntry .signal (some c)
      { qualifier := 0, groupNumber := some gn, slot := none, value := 0, frame := some f, ranges := [] }
  | .frameStale slot c k f gn isWorn =>
    packEntry .frameStale c
      { qualifier := (k.map MemberKind.code).getD 0, groupNumber := gn, slot := some slot,
        value := isWorn.toNat, frame := f, ranges := [] }
  | .withdrawn slot ranges c gn f =>
    packEntry .withdrawn c
      { qualifier := 0, groupNumber := gn, slot := some slot, value := 0, frame := f, ranges := ranges }
  | .holdExpired slot range c gn =>
    packEntry .holdExpired c
      { qualifier := 0, groupNumber := gn, slot := some slot, value := 0, frame := none,
        ranges := range.toList }
  | .channelState c st e =>
    packEntry .channelState (some c)
      { qualifier := st.code, groupNumber := none, slot := none, value := e.code, frame := none,
        ranges := [] }
  | .fault cl k c gn slot sector =>
    packEntry .fault c
      { qualifier := cl.code, groupNumber := gn, slot := slot, value := k.code, frame := none,
        ranges := (sector.map (fun s => ({ first := s, count := 1 } : SectorRange))).toList }

/-- The FAULT report of a record (R202). -/
def FaultRecord.report (r : FaultRecord) : Report :=
  .fault r.kind.faultClass r.kind r.channel r.groupNumber r.slot r.sector

end Sys2Proof.Machine
end

