-- ==== Sys2Proof/Machine/Ops.lean ====
section
/-! DEFINITION. The named reads and writes of the blocks' state: tables, frame entries, groups, accepted
requests, channels, the class lists of the memory port, responses, and the work of a step. -/
namespace Sys2Proof.Machine

/-! ## Tables -/

/-- The entry under a key, if in use. -/
def Table.get {α : Type} : Table α → Nat → Option α
  | [], _ => none
  | (j, a) :: t, k => if j = k then some a else Table.get t k

/-- Put an entry under a key, keeping the keys rising. -/
def Table.put {α : Type} (k : Nat) (a : α) : Table α → Table α
  | [] => [(k, a)]
  | (j, b) :: t =>
    if k < j then (k, a) :: (j, b) :: t
    else if k = j then (k, a) :: t
    else (j, b) :: Table.put k a t

/-- Free the entry under a key. -/
def Table.remove {α : Type} (k : Nat) (t : Table α) : Table α := t.filter (fun e => e.1 ≠ k)

/-- The canonical form: keys strictly rising. -/
def Table.wf {α : Type} : Table α → Bool
  | [] => true
  | [_] => true
  | (j, _) :: (k, b) :: t => decide (j < k) && Table.wf ((k, b) :: t)

/-- The lowest free key below a bound. -/
def Table.lowestFree {α : Type} (bound : Nat) (t : Table α) : Option Nat :=
  (List.range bound).find? (fun k => (Table.get t k).isNone)

/-! ## The step's work (log 11) -/

/-- Put work in front of what the step still has to do. -/
def State.push (s : State) (ts : List Task) : State := { s with agenda := ts ++ s.agenda }

/-- Whether a task presents the request a classification has passed. -/
def Task.presents : Task → Bool
  | .present _ => true
  | _ => false

/-- Work put behind the presenting of the request whose classification is under way, or in front where none
is. -/
def behindPresent (ts agenda : List Task) : List Task :=
  let k := agenda.findIdx Task.presents
  if k < agenda.length then agenda.take (k + 1) ++ ts ++ agenda.drop (k + 1) else ts ++ agenda

/-- Put work in front of what the step still has to do, but behind the presenting of the request whose
classification causes it: passed requests are presented in the order of their classification (R49, R60, R68,
R182; log 11). -/
def State.pushBehind (s : State) (ts : List Task) : State := { s with agenda := behindPresent ts s.agenda }

/-- Whether a task abandons a group. -/
def Task.abandons : Task → Bool
  | .abandon _ => true
  | _ => false

/-- Whether the ABORT being taken has groups left to abandon (R87). -/
def State.aborting (s : State) : Bool := s.agenda.any Task.abandons

/-- Work put behind the groups an ABORT has left to abandon. -/
def behindAbandons (ts agenda : List Task) : List Task :=
  let k := agenda.length - agenda.reverse.findIdx Task.abandons
  agenda.take k ++ ts ++ agenda.drop k

/-- Whether the ABORT being taken has a group still to abandon (R87, R135). -/
def State.awaitsAbandon (s : State) (g : Nat) : Bool := s.agenda.contains (.abandon g)

/-! ## Configuration and control area -/

/-- N of the loaded configuration; 0 while none is loaded. -/
def State.sectors (s : State) : Nat := (s.control.config.map (·.sectors)).getD 0

/-- The control area base in force (R192). -/
def State.controlBase (s : State) : Nat := Machine.controlBase s.pins.caSel

/-- Whether a configuration is held and the part is CONFIGURED. -/
def State.configured (s : State) : Bool := s.control.part == .configured

/-! ## Frame entries (R16, R19) -/

/-- A slot's frame entry. -/
def State.frame (s : State) (slot : Nat) : FrameEntry :=
  (Table.get s.map.entries slot).getD FrameEntry.free

/-- Write a frame entry; each write regenerates the entry parity (R19). A FREE entry is not listed. -/
def State.putFrame (s : State) (slot : Nat) (e : FrameEntry) : State :=
  let e := { e with parityOk := true }
  { s with map := { s.map with
      entries := if e = FrameEntry.free then Table.remove slot s.map.entries
                 else Table.put slot e s.map.entries } }

/-- The frame number as the reports and the source search speak of it: for a parity frame the group
number (R17). -/
def FrameEntry.expected (e : FrameEntry) : Option Word32 :=
  match e.kind with
  | some (.parity _) => e.groupNumber
  | _ => e.frameNumber

/-! ## Groups (R103, R116) -/

/-- A group in the table. -/
def State.group (s : State) (g : Nat) : Option Group := Table.get s.groups.entries g

/-- Write a group record; each write generates the check bits anew (R103, R116). -/
def State.putGroup (s : State) (g : Nat) (grp : Group) : State :=
  { s with groups := { s.groups with
      entries := Table.put g { grp with checkOk := true } s.groups.entries } }

/-- Change a group record, if the entry is occupied. -/
def State.modGroup (s : State) (g : Nat) (f : Group → Group) : State :=
  match s.group g with
  | some grp => s.putGroup g (f grp)
  | none => s

/-- Free a Group Table entry (R91). -/
def State.dropGroup (s : State) (g : Nat) : State :=
  { s with groups := { s.groups with entries := Table.remove g s.groups.entries } }

/-- A group is live while its entry is occupied and it is not RETIRING (R18). -/
def Group.live (grp : Group) : Bool := grp.state != .retiring

/-- The live groups, by ascending index. -/
def State.liveGroups (s : State) : List Nat :=
  (s.groups.entries.filter (fun e => e.2.live)).map (·.1)

/-- The states whose groups are interlocked (R61). -/
def GroupState.interlocked : GroupState → Bool
  | .sealing | .auditing | .reconstructing | .concealing | .abandoning => true
  | .collecting | .gathering | .awaitingReread | .retiring => false

/-- The slots of a group's members. -/
def Group.slots (grp : Group) : List Nat := grp.members.map (·.slot)

/-- The place of a slot in the member order. -/
def Group.place (grp : Group) (slot : Nat) : Option Nat := grp.members.findIdx? (·.slot == slot)

/-- The expected frame number of the member at a place (R10). -/
def Group.expected (grp : Group) (place : Nat) : Word32 :=
  expectedFrame grp.firstFrame grp.groupNumber (memberKind grp.dataCount place) place

/-- Change one member record. -/
def Group.modMember (grp : Group) (place : Nat) (f : Member → Member) : Group :=
  { grp with members := grp.members.modify place f }

/-! ## Accepted requests (R42) -/

/-- An accepted request, by tag. -/
def State.accepted (s : State) (tag : Nat) : Option Accepted := Table.get s.port.accepted tag

/-- Write an accepted-request table entry. -/
def State.putAccepted (s : State) (tag : Nat) (a : Accepted) : State :=
  { s with port := { s.port with accepted := Table.put tag a s.port.accepted } }

/-- A response leaves the recorder port (R41; log 6). -/
def State.send (s : State) (r : Response) : State :=
  { s with port := { s.port with sent := s.port.sent ++ [r] } }

/-- The response of an accepted request leaves, and the entry of its tag becomes free (R42; log 5). -/
def State.respond (s : State) (tag : Nat) (status : ResponseStatus) (beats : List Beat) : State :=
  { s with port := { s.port with
      accepted := Table.remove tag s.port.accepted
      sent := s.port.sent ++ [{ tag := tag, status := status, beats := beats }] } }

/-- All-zero beats (R41). -/
def zeroBeats (n : Nat) : List Beat := List.replicate n 0

/-- Answer an accepted request without performing it: a read POISON with one all-zero beat per beat
requested, a write REFUSED (R43, R56). -/
def State.turnAway (s : State) (tag : Nat) : State :=
  match s.accepted tag with
  | some a =>
    match a.kind with
    | .read => s.respond tag .poison (zeroBeats a.length)
    | .write => s.respond tag .refused []
  | none => s

/-- Whether a write fenced to a slot remains (R61). -/
def State.fenced (s : State) (slot : Nat) : Bool :=
  s.port.accepted.any (fun e => e.2.fence == some slot)

/-- The arena slot an address lies in under the loaded configuration. -/
def State.slotOf (s : State) (addr : Nat) : Option Nat :=
  match s.control.config with
  | some c => if c.inArena addr then some (c.resolve addr).slot else none
  | none => none

/-- Fence every waiting write to one of the slots given (R61). -/
def State.fenceSlots (s : State) (slots : List Nat) : State :=
  { s with port := { s.port with
      accepted := s.port.accepted.map (fun e =>
        if e.2.kind == .write && e.2.disposition == .waitingIssue then
          match s.slotOf e.2.addr with
          | some k => if slots.contains k then (e.1, { e.2 with fence := some k }) else e
          | none => e
        else e) } }

/-! ## The memory port's lists (R181, R182) -/

/-- The block that presents a request (R181). -/
def OwnerRef.owner : OwnerRef → Owner
  | .pass _ | .sourceRead _ => .recorderPort
  | .channelWord _ | .planFetch _ | .rejectedStatus _ _ _ => .channelUnit
  | .status _ _ => .groupController
  | .concealedTail _ _ _ _ _ _ _ => .concealmentUnit
  | .header | .report _ | .mirror _ | .faultPage _ => .controlUnit
  | .engineRead _ _ | .engineWrite _ _ | .engineTail _ => .repairEngine

/-- The class of a request, fixed by its kind of traffic (R181). -/
def OwnerRef.requestClass : OwnerRef → RequestClass
  | .pass _ | .sourceRead _ => .pass
  | .channelWord _ | .planFetch _ | .rejectedStatus _ _ _ | .status _ _
  | .concealedTail _ _ _ _ _ _ _ | .header | .report _ | .mirror _ | .faultPage _ => .service
  | .engineRead _ _ | .engineWrite _ _ | .engineTail _ => .engine

/-- Present a request: append it at the tail of its class's list (R182). -/
def State.presentMem (s : State) (r : MemRequest) : State :=
  match r.ref.requestClass with
  | .pass => { s with memPort := { s.memPort with passList := s.memPort.passList ++ [r] } }
  | .service => { s with memPort := { s.memPort with serviceList := s.memPort.serviceList ++ [r] } }
  | .engine => { s with memPort := { s.memPort with engineList := s.memPort.engineList ++ [r] } }

/-- A read of `length` beats. -/
def readRequest (ref : OwnerRef) (addr length : Nat) : MemRequest :=
  { ref := ref, kind := .read, addr := addr, length := length, beats := [] }

/-- A write of the beats given. -/
def writeRequest (ref : OwnerRef) (addr : Nat) (beats : List WriteBeat) : MemRequest :=
  { ref := ref, kind := .write, addr := addr, length := beats.length, beats := beats }

/-! ## Channels -/

/-- A channel context. -/
def State.channel (s : State) (c : Fin 8) : Channel := s.channels[c]

/-! ## Upsets (log 9) -/

/-- An upset strikes: the check bits of one stored entry no longer agree. -/
def State.strike (s : State) (u : Upset) : State :=
  match u with
  | .frame slot =>
    { s with map := { s.map with
        entries := Table.put slot { s.frame slot with parityOk := false } s.map.entries } }
  | .group g =>
    match s.group g with
    | some grp =>
      { s with groups := { s.groups with
          entries := Table.put g { grp with checkOk := false } s.groups.entries } }
    | none => s
  | .conceal n =>
    { s with conceal := { s.conceal with
        table := s.conceal.table.modify n (fun e => { e with checkOk := false }) } }

end Sys2Proof.Machine
end

