-- ==== Sys2Proof/Machine/Flags.lean ====
section
/-! DEFINITION. The Control and Report Unit's flags and records: the status mirror (R205), the Fault Log and
fault page (R203, R204), reports (R200), fault entry (R199), and IRQ_N (R206). -/
namespace Sys2Proof.Machine

/-! ## Beats handed over for writing (R204, R205) -/

/-- Hand a mirror or fault page beat over: nothing is written while memory writing is not enabled; a
presented write of the beat that is not yet issued takes the new data in place; otherwise a new one-beat
write is presented (R204, R205, R182). -/
def State.handBeat (s : State) (ref : OwnerRef) (addr : Nat) (data : Beat) : State :=
  if s.control.writing then
    let w := writeRequest ref addr [{ data := data, enables := allEnabled }]
    if s.memPort.serviceList.any (fun r => r.ref == ref) then
      { s with memPort := { s.memPort with
          serviceList := s.memPort.serviceList.map (fun r => if r.ref == ref then w else r) } }
    else s.presentMem w
  else s

/-- Hand the part beat over (R208). -/
def State.handPart (s : State) : State :=
  s.handBeat (.mirror 0) (s.controlBase + Config.mirrorArea) s.control.partBeat

/-- Hand a channel's beat over (R208). -/
def State.handChannel (s : State) (c : Fin 8) : State :=
  s.handBeat (.mirror (1 + c.val)) (s.controlBase + Config.mirrorArea + Config.beatBytes * (1 + c.val))
    (s.channel c).beat

/-- A class of the Fault Log (R203). -/
def Control.log (c : Control) : FaultClass → FaultLog
  | .contained => c.contained
  | .uncontained => c.uncontained

/-- Draw a free value (logs 8 and 20). -/
def State.draw (s : State) : State := { s with drawn := s.drawn + 1 }

/-- Hand a class's record beat over (R208). -/
def State.handRecord (s : State) (cl : FaultClass) : State :=
  State.draw (s.handBeat (.faultPage cl.code)
    (s.controlBase + Config.faultPage + Config.beatBytes * cl.code)
    ((s.control.log cl).recordBeat (Config.freeBeat s.drawn)))

/-- Hand a class's next-set beat over (R208). -/
def State.handNext (s : State) (cl : FaultClass) : State :=
  s.handBeat (.faultPage (2 + cl.code))
    (s.controlBase + Config.faultPage + Config.beatBytes * (2 + cl.code)) (s.control.log cl).nextBeat

/-- Change the Control and Report Unit's fields; a change of a mirror field hands the part beat over
(R205). -/
def State.setControl (s : State) (f : Control → Control) : State :=
  let t := { s with control := f s.control }
  if t.control.partBeat = s.control.partBeat then t else t.handPart

/-- Change a channel context; a change of a mirror field hands the channel's beat over (R92, R205). -/
def State.setChannel (s : State) (c : Fin 8) (f : Channel → Channel) : State :=
  let t := { s with channels := s.channels.set c (f (s.channel c)) }
  if (t.channel c).beat = (s.channel c).beat then t else t.handChannel c

/-- The first load or clear trigger enables memory writing and hands over all nine mirror beats and all
four fault page beats (R192, R205). The rules give the thirteen no order; here they are presented by ascending
address: part, channels 0 to 7, both records, both next sets (DESIGN CHOICE, log 35). -/
def State.enableWriting (s : State) : State :=
  if s.control.writing then s
  else
    let s := { s with control := { s.control with writing := true } }
    let s := s.handPart
    let s := (List.finRange 8).foldl State.handChannel s
    let s := (s.handRecord .contained).handRecord .uncontained
    (s.handNext .contained).handNext .uncontained

/-! ## The Fault Log (R203) -/

/-- Put a kind into a next set, once, in the order of the codes. -/
def insertKind (k : FaultKind) : List FaultKind → List FaultKind
  | [] => [k]
  | j :: js =>
    if k.code < j.code then k :: j :: js else if k = j then j :: js else j :: insertKind k js

/-- Replace a class of the log. -/
def Control.setLog (c : Control) (cl : FaultClass) (l : FaultLog) : Control :=
  match cl with
  | .contained => { c with contained := l }
  | .uncontained => { c with uncontained := l }

/-- Take a fault against its class: fill an invalid first record, or add the kind to the next set; hand
the beat over (R203). -/
def State.logFault (s : State) (r : FaultRecord) : State :=
  let cl := r.kind.faultClass
  let l := s.control.log cl
  match l.first with
  | none =>
    State.handRecord { s with control := s.control.setLog cl { l with first := some r } } cl
  | some _ =>
    State.handNext { s with control := s.control.setLog cl { l with next := insertKind r.kind l.next } } cl

/-- Whether a fault fills its class's first record (R203). -/
def State.fillsRecord (s : State) (r : FaultRecord) : Bool :=
  (s.control.log r.kind.faultClass).first.isNone

/-! ## Reports (R200) -/

/-- The unit presents the write of the post list's head, if none is out (R200). -/
def State.presentReport (s : State) : State :=
  if s.control.reportOut then s
  else
    match s.control.posts, s.control.config with
    | r :: _, some c =>
      let s := s.presentMem (writeRequest (.report s.control.ringEra)
        (c.ringBase + s.control.writeIndex * Config.beatBytes)
        [{ data := r.beat, enables := allEnabled }])
      { s with control := { s.control with reportOut := true } }
    | _, _ => s

/-- Whether the ring has no room for another report: (write index + post list length − taken copy) mod
ring size equals ring size − 1 (R200). -/
def Control.ringFull (c : Control) (ringSize : Nat) : Bool :=
  (c.writeIndex + c.posts.length + ringSize - c.taken) % ringSize == ringSize - 1

/-- The RING_OVERFLOW fault of a report that found the ring full (R200). -/
def Report.overflowFault (r : Report) : FaultRecord :=
  { kind := .ringOverflow, channel := r.channel, groupNumber := none, slot := none, sector := none,
    detail := some (.report r.kind) }

/-- A report met a full ring: the overflow flag is set and RING_OVERFLOW raised. If that fault fills the
CONTAINED record, its FAULT report meets the same full ring, and the second RING_OVERFLOW enters the
next set (R200, R203). The part beat is handed over before the fault page beat (DESIGN CHOICE, log 39). -/
def State.overflowReport (s : State) (r : Report) : State :=
  let s := s.setControl (fun c => { c with overflow := true })
  let f := r.overflowFault
  if s.fillsRecord f then (s.logFault f).logFault f.report.overflowFault else s.logFault f

/-- A block posts a report (R200). -/
def State.post (s : State) (r : Report) : State :=
  match s.control.part, s.control.config with
  | .blank, _ => s
  | .clearing, _ => s
  | _, none => s
  | _, some c =>
    if s.control.ringFull c.ringSize then s.overflowReport r
    else
      State.presentReport { s with control := { s.control with posts := s.control.posts ++ [r] } }

/-! ## What a warm clear and a fault entry begin with -/

/-- The Hold Queue answers every held request, in queue order, and empties (R76). -/
def State.answerHolds (s : State) : State :=
  { s.holds.foldl (fun s h => s.turnAway h.tag) s with holds := [] }

/-- The engine is QUIET once it is QUIESCING with nothing in flight (R160). -/
def State.testQuiet (s : State) : State :=
  if s.engine.state = .quiescing ∧ s.engine.inFlight = [] then
    { s with engine := { s.engine with state := .quiet } }
  else s

/-- The engine is told to quiesce (R160). -/
def State.quiesce (s : State) : State :=
  match s.engine.state with
  | .quiet => s
  | _ => State.testQuiet { s with engine := { s.engine with state := .quiescing } }

/-- A running membership search is ended without outcome, and the pending-search list emptied (R40). -/
def State.endSearches (s : State) : State :=
  { s with map := { s.map with pendingSearch := [], search := none } }

/-- Channel reads in flight are marked for discard (R102). -/
def State.discardReads (s : State) : State :=
  { s with channels := s.channels.map (fun c => if c.fetch = .none then c else { c with discard := true }) }

/-- The Group Controller discards every gather and reread deadline (R136). -/
def State.dropDeadlines (s : State) : State :=
  { s with groups := { s.groups with
      entries := s.groups.entries.map (fun e =>
        if e.2.gatherDeadline.isNone && e.2.rereadDeadline.isNone then e
        else (e.1, { e.2 with gatherDeadline := none, rereadDeadline := none, checkOk := true })) } }

/-- The first steps of a warm clear and of a fault entry: the holds are answered, the engine told to
quiesce, the searches ended, channel reads marked and deadlines discarded (R198, R199, R136). -/
def State.haltWork (s : State) : State :=
  let s := { s with control := { s.control with era := s.control.era + 1 } }
  s.answerHolds.quiesce.endSearches.discardReads.dropDeadlines

/-- Fault entry begins (R199, steps 1 and 2). -/
def State.enterFaulted (s : State) : State :=
  State.haltWork (s.setControl (fun c => { c with part := .faulted, entering := true }))

/-! ## Raising a fault (R203) -/

/-- Raise a fault: it is logged, its FAULT report is posted when it fills its class's first record, and
an uncontained fault raised in CONFIGURED makes the part FAULTED (R199, R203). The fault page beat is handed over
before the FAULT report's write is presented, and the part beat of FAULTED after both (DESIGN CHOICE, log 39). -/
def State.raise (s : State) (r : FaultRecord) : State :=
  let fills := s.fillsRecord r
  let s := s.logFault r
  let s := if fills then s.post r.report else s
  if r.kind.faultClass = .uncontained ∧ s.control.part = .configured then s.enterFaulted else s

/-! ## IRQ_N (R206) -/

/-- Whether IRQ_N is driven low (R206). While no configuration is held both enables count as clear;
while RST_N is low it is inactive (R194). -/
def State.interrupt (s : State) : Bool :=
  let c := s.control
  let ringEnable := (c.config.map (·.ringInterrupt)).getD false
  let containedEnable := (c.config.map (·.containedInterrupt)).getD false
  !s.pins.resetLow &&
    ((c.writeIndex != c.taken && ringEnable) || c.uncontained.first.isSome ||
      (c.contained.first.isSome && containedEnable))

/-- IRQ_N takes its level (R206). -/
def State.driveInterrupt (s : State) : State :=
  { s with pins := { s.pins with irqLow := s.interrupt } }

end Sys2Proof.Machine
end

