-- ==== Sys2Proof/Machine/FrameMap.lean ====
section
/-! DEFINITION. The Frame Map's own operations: reads that check (R19, R33), questions (R20, R34), extent edits
(R27, R28), final states (R29 to R31) and the claim test (R24). -/
namespace Sys2Proof.Machine

/-! ## Quarantine (R33) -/

/-- A search starts for the head of the pending-search list when none is running and the part is
CONFIGURED (R33). -/
def State.startSearch (s : State) : State :=
  match s.control.part, s.map.search, s.map.pendingSearch with
  | .configured, none, slot :: _ =>
    { s with map := { s.map with search := some { slot := slot, next := 0, noted := [] } } }
  | _, _, _ => s

/-- An entry that failed its check: the slot is QUARANTINED and joins the pending-search list once
(R33). -/
def State.quarantine (s : State) (slot : Nat) : State :=
  let s := s.putFrame slot { s.frame slot with state := .quarantined }
  let s := if s.map.pendingSearch.contains slot then s
    else { s with map := { s.map with pendingSearch := s.map.pendingSearch ++ [slot] } }
  s.startSearch

/-- Read a frame entry: an entry that fails its check is quarantined (R19, R33). A QUARANTINED slot's
fields are not read. -/
def State.touch (s : State) (slot : Nat) : State :=
  let e := s.frame slot
  if e.parityOk || e.state == .quarantined then s else s.quarantine slot

/-- Read several entries, one after another. Those that fail join the pending-search list in the order of reading
(R33): a claim tests in plan order (R24); elsewhere the rules give no order, and the callers read in member order, or
in the order of the Hold Queue at a cursor notice (DESIGN CHOICE, log 43). -/
def State.touchAll (s : State) (slots : List Nat) : State := slots.foldl State.touch s

/-! ## Questions (R20, R34) -/

/-- The extent the Frame Map answers for a slot: the whole frame when it is QUARANTINED (R34). -/
def State.extentOf (s : State) (slot : Nat) : Extent :=
  let e := s.frame slot
  if e.state = .quarantined then Extent.whole s.sectors else e.extent

/-- Whether a slot's extent holds a position, as the Frame Map answers it. -/
def State.damagedAt (s : State) (slot position : Nat) : Bool := (s.extentOf slot).holds position

/-- The damaged set E(s) of a group at a position: places in the member order, rising (R15). -/
def State.damagedSet (s : State) (grp : Group) (position : Nat) : Positions :=
  (List.range grp.members.length).filter (fun m =>
    match grp.members[m]? with
    | some mem => s.damagedAt mem.slot position
    | none => false)

/-- Whether some member of a group passing a test has a non-empty extent. -/
def State.anyDamaged (s : State) (grp : Group) (p : Member → Bool) : Bool :=
  grp.members.any (fun m => p m && !(s.extentOf m.slot).isEmpty)

/-! ## Extent edits (R27, R28, R34) -/

/-- Insert ranges into a slot's extent, one after another; not applied to a QUARANTINED slot (R34). -/
def State.insertRanges (s : State) (slot : Nat) (news : List SectorRange) : State :=
  let s := s.touch slot
  let e := s.frame slot
  if e.state = .quarantined then s
  else s.putFrame slot { e with extent := Extent.insertAll s.sectors e.extent news }

/-- Insert (s, 1) into a slot's extent. -/
def State.insertPosition (s : State) (slot position : Nat) : State :=
  s.insertRanges slot [{ first := position, count := 1 }]

/-- Remove a position from a slot's extent; the Bool handed back says removed (R23). For a QUARANTINED
slot nothing is applied and it is handed back as kept (R34). -/
def State.removePosition (s : State) (slot position : Nat) : State × Bool :=
  let s := s.touch slot
  let e := s.frame slot
  if e.state = .quarantined then (s, false)
  else
    let r := Extent.remove e.extent position
    (s.putFrame slot { e with extent := r.1 }, r.2)

/-! ## Final states (R29 to R31, R34) -/

/-- Give a member its final state and drop its owner. A QUARANTINED slot stays QUARANTINED, and its
owner link ends (R34). -/
def State.finalState (s : State) (slot : Nat) (f : FrameEntry → FrameEntry) : State :=
  let s := s.touch slot
  let e := s.frame slot
  if e.state = .quarantined then s.putFrame slot { e with owner := none }
  else s.putFrame slot { f e with owner := none }

/-- A RECORD member's final state from its failed positions (R29). -/
def recordFinal (n : Nat) (failed : Positions) (e : FrameEntry) : FrameEntry :=
  match failed with
  | [] => { e with state := .sealed, extent := [] }
  | ps => { e with
      state := .lost
      extent := Extent.insertAll n [] (ps.map (fun p => { first := p, count := 1 })) }

/-- A RESTORE member's final state from its damage mark and whether Concealment Table entries cover
its extent (R30). -/
def restoreFinal (isData damageMark covered : Bool) (e : FrameEntry) : FrameEntry :=
  if e.extent.isEmpty then { e with state := if damageMark then .repaired else .verified }
  else if isData && covered then { e with state := .concealed }
  else { e with state := .lost }

/-- A member's state after abandonment (R31). -/
def abandonFinal (role : Role) (e : FrameEntry) : FrameEntry :=
  match role with
  | .record => { e with state := .stale, extent := [] }
  | .restore => if e.extent.isEmpty then { e with state := .stale } else { e with state := .lost }

/-! ## The claim test (R24) -/

/-- The states a claim takes slots from (R24). -/
def FrameState.claimable : FrameState → Bool
  | .free | .sealed | .verified | .repaired | .concealed | .lost | .stale => true
  | .filling | .arriving | .quarantined => false

/-- Test every listed slot in plan order; the first that fails is handed back (R24). -/
def State.claimTest (s : State) (slots : List Nat) : State × Option Nat :=
  let s := s.touchAll slots
  (s, slots.find? (fun k => !(s.frame k).state.claimable))

/-- What a claimed slot's entry becomes (R25). -/
def claimedEntry (role : Role) (channel : Fin 8) (groupNumber firstFrame : Word32) (d owner place : Nat) :
    FrameEntry :=
  let kind := memberKind d place
  { state := match role with
      | .record => .filling
      | .restore => .arriving
    channel := some channel
    kind := some kind
    frameNumber := match kind with
      | .data => some (expectedFrame firstFrame groupNumber kind place)
      | .parity _ => none
    groupNumber := some groupNumber
    owner := some owner
    extent := []
    worn := false
    parityOk := true }

/-! ## The source lookup (R20) -/

/-- Whether a slot qualifies as a source (R20, R166). -/
def FrameEntry.servesAs (e : FrameEntry) (channel : Fin 8) (frame : Word32) (acceptable : Bool) : Bool :=
  e.channel == some channel && e.kind == some .data && e.frameNumber == some frame &&
    (e.state == .verified || e.state == .repaired || acceptable) && e.state != .quarantined

/-- Examine slots in ascending number and stop at the first that qualifies; an entry that fails its
check on the way is quarantined and does not qualify (R20). -/
def State.sourceLookup (channel : Fin 8) (frame : Word32) (acceptable : List Nat) :
    State → List Nat → State × Option Nat
  | s, [] => (s, none)
  | s, k :: ks =>
    let s := s.touch k
    if (s.frame k).servesAs channel frame (acceptable.contains k) then (s, some k)
    else State.sourceLookup channel frame acceptable s ks

end Sys2Proof.Machine
end

