-- ==== Sys2Proof/Machine/Concealment.lean ====
section
/-! DEFINITION. The Concealment Unit: deciding a group (R165 to R170), lookups (R164, R172), removals and
withdrawals (R173 to R177), and the stale mark and claim that cause them (R25, R26, R32). -/
namespace Sys2Proof.Machine

/-! ## Table lookups -/

/-- A target's entries. -/
def Concealment.entriesOf (c : Concealment) (target : Nat) : List ConcealEntry :=
  c.table.filter (fun e => e.target == target)

/-- Whether a target's entries cover an extent (R30). -/
def Concealment.covers (c : Concealment) (target : Nat) (ext : Extent) : Bool :=
  let es := c.entriesOf target
  !ext.isEmpty && (Extent.positions ext).all (fun p => es.any (fun e => e.range.holds p))

/-- The CONCEAL_TABLE_PARITY fault of a failing entry (R164). -/
def ConcealEntry.parityFault (e : ConcealEntry) : FaultRecord :=
  { kind := .concealTableParity, channel := none, groupNumber := none, slot := some e.target,
    sector := none, detail := none }

/-- What a lookup for a recorder read finds (R164, R172): the source, a failing entry, or nothing. -/
inductive Lookup where
  | found (source : Source)
  | bad (entry : ConcealEntry)
  | missing
  deriving DecidableEq, Repr

/-- The lookup reads the target's entries one after another until one holds the position (R172; log 17). -/
def Concealment.lookup (position : Nat) : List ConcealEntry → Lookup
  | [] => .missing
  | e :: es =>
    if !e.checkOk then .bad e
    else if e.range.holds position then .found e.source
    else Concealment.lookup position es

/-! ## Removal (R173) -/

/-- Scan the table, removing the entries whose target is one of those given; the scan stops at an entry
that fails its check, which is handed back (R164, R173). -/
def Concealment.scan (targets : List Nat) : List ConcealEntry → List ConcealEntry × Option ConcealEntry
  | [] => ([], none)
  | e :: es =>
    if !e.checkOk then (e :: es, some e)
    else
      let r := Concealment.scan targets es
      (if targets.contains e.target then r.1 else e :: r.1, r.2)

/-- Take the tail writes of the slots given out of the pending lists (R173, R175). -/
def State.dropTails (s : State) (slots : List Nat) : State :=
  { s with conceal := { s.conceal with
      work := s.conceal.work.map (fun w =>
        { w with pending := w.pending.filter (fun p => !slots.contains p.slot) }) } }

/-- Remove the entries of targets, silently; `false` when an entry failed its check and the scan
stopped (R164, R173). -/
def State.removeTargets (s : State) (targets : List Nat) : State × Bool :=
  let r := Concealment.scan targets s.conceal.table
  let s := { s with conceal := { s.conceal with table := r.1 } }
  let s := s.dropTails targets
  match r.2 with
  | none => (s, true)
  | some e => (s.raise e.parityFault, false)

/-! ## Withdrawal (R174 to R176) -/

/-- Put a slot number into a rising list, once. -/
def insertSlot (k : Nat) (l : List Nat) : List Nat := Positions.insert k l

/-- The targets whose entries name one of the slots as source, in ascending slot number (R174). -/
def Concealment.targetsOf (c : Concealment) (sources : List Nat) : List Nat :=
  (c.table.filter (fun e => sources.any (fun k => e.source == .slot k))).foldl
    (fun acc e => insertSlot e.target acc) []

/-- Put a range into a list of ranges by its first position (R176). -/
def insertRange (r : SectorRange) : List SectorRange → List SectorRange
  | [] => [r]
  | q :: qs => if r.first ≤ q.first then r :: q :: qs else q :: insertRange r qs

/-- Withdraw one target: its entries go, its pending tails go, a CONCEALED target becomes LOST, and a
WITHDRAWN report is posted (R174, R175, R176). -/
def State.withdraw (s : State) (target : Nat) : State :=
  let ranges := (s.conceal.entriesOf target).foldl (fun acc e => insertRange e.range acc) []
  let s := { s with conceal := { s.conceal with
    table := s.conceal.table.filter (fun e => e.target != target) } }
  let s := s.dropTails [target]
  let s := s.touch target
  let e := s.frame target
  let s := if e.state = .concealed then s.putFrame target { e with state := .lost } else s
  if e.state = .quarantined then s.post (.withdrawn target ranges none none none)
  else s.post (.withdrawn target ranges e.channel e.groupNumber e.expected)

/-- Groups whose concealment may have become complete are tested after what caused it (R171, R175). Where one
withdrawal or removal completes the concealment of several, they are tested, and retire, in the order in which they
entered CONCEALING: R131, R171, R174 and R175 give none (DESIGN CHOICE, log 38). -/
def State.pushConcealTests (s : State) : State :=
  s.push ((s.conceal.work.filter (fun w => w.pending.isEmpty && w.outstanding == 0)).map
    (fun w => .concealed w.group))

/-- End every concealment that involves one of the slots: their own entries are removed, and the entries
that use one of them as source are withdrawn (R26, R32, R36, R173, R174). -/
def State.endConcealments (s : State) (slots : List Nat) : State :=
  let r := s.removeTargets slots
  if r.2 then
    let s := (r.1.conceal.targetsOf slots).foldl State.withdraw r.1
    s.pushConcealTests
  else r.1

/-! ## The stale mark (R32) and the claim (R25, R26) -/

/-- The states a stale mark drops to STALE (R32). -/
def FrameState.vouched : FrameState → Bool
  | .sealed | .verified | .repaired | .concealed | .lost => true
  | .free | .filling | .arriving | .stale | .quarantined => false

/-- The FRAME_STALE report of an entry (R32, R202). -/
def FrameEntry.staleReport (e : FrameEntry) (slot : Nat) : Report :=
  .frameStale slot e.channel e.kind e.expected e.groupNumber e.worn

/-- A stale mark: STALE, extent emptied, FRAME_STALE posted, concealments ended (R32). -/
def State.staleMark (s : State) (slot : Nat) : State :=
  let e := s.frame slot
  if e.state.vouched then
    let s := s.putFrame slot { e with state := .stale, extent := [] }
    let s := s.post (e.staleReport slot)
    s.endConcealments [slot]
  else s

/-- A successful claim rewrites every listed slot's entry and ends the concealments of the set (R25,
R26). -/
def State.claim (s : State) (role : Role) (channel : Fin 8) (groupNumber firstFrame : Word32)
    (d owner : Nat) (slots : List Nat) : State :=
  let s := (slots.zipIdx).foldl (fun s p =>
    s.putFrame p.1 (claimedEntry role channel groupNumber firstFrame d owner p.2)) s
  s.endConcealments slots

/-! ## Deciding a group (R165 to R170) -/

/-- Try k = 1, 2, … up to the reach for a source frame f − k (R166). -/
def State.findSource (channel : Fin 8) (f : Word32) (acceptable slots : List Nat) :
    State → List Nat → State × Option Nat
  | s, [] => (s, none)
  | s, k :: ks =>
    let r := State.sourceLookup channel (f - BitVec.ofNat 32 k) acceptable s slots
    match r.2 with
    | some src => (r.1, some src)
    | none => State.findSource channel f acceptable slots r.1 ks

/-- The listed slots below the slot count, ascending: the only ones that are not FREE (R16). -/
def State.knownSlots (s : State) : List Nat :=
  (s.map.entries.map (·.1)).filter (fun k => decide (k < (s.control.config.map (·.slotCount)).getD 0))

/-- The source of a damaged member under the group's policy (R166, R167); none refuses it. -/
def State.chooseSource (s : State) (grp : Group) (terms : RestoreTerms) (place : Nat) :
    State × Option Source :=
  match terms.policy with
  | .poison => (s, none)
  | .fill => (s, some .fill)
  | .holdPrevious =>
    let acceptable := (grp.members.filter (fun m =>
      m.kind == .data && (s.extentOf m.slot).isEmpty)).map (·.slot)
    let r := State.findSource grp.channel (grp.expected place) acceptable s.knownSlots s
      ((List.range terms.reach).map (· + 1))
    (r.1, r.2.map Source.slot)

/-- Append tail writes to a group's pending list (R170). -/
def State.appendTails (s : State) (g : Nat) (tails : List PendingTail) : State :=
  { s with conceal := { s.conceal with
      work := s.conceal.work.map (fun w =>
        if w.group = g then { w with pending := w.pending ++ tails } else w) } }

/-- Decide one damaged data member (R165): refuse it, or create its entries and its pending tails. -/
def State.decideMember (g : Nat) (grp : Group) (terms : RestoreTerms) (s : State) (place : Nat) :
    State :=
  match grp.members[place]? with
  | none => s
  | some m =>
    let s := s.touch m.slot
    if (s.frame m.slot).state = .quarantined then s
    else
      let ext := s.extentOf m.slot
      let r := s.chooseSource grp terms place
      let s := r.1
      match r.2 with
      | none => s
      | some src =>
        let room := Config.concealCapacity - s.conceal.table.length
        if ext.length ≤ room then
          let s := { s with conceal := { s.conceal with
            table := s.conceal.table ++ ext.map (fun rg =>
              ({ target := m.slot, range := rg, source := src, checkOk := true } : ConcealEntry)) } }
          s.appendTails g ((Extent.positions ext).map (fun p =>
            ({ slot := m.slot, position := p, frameNumber := grp.expected place } : PendingTail)))
        else
          s.raise
            { kind := .concealFull, channel := some grp.channel,
              groupNumber := some grp.groupNumber, slot := some m.slot, sector := none,
              detail := some (.room ext.length room) }

/-- A group enters CONCEALING: every damaged data member is decided, one after another in member order,
in this step (R165). -/
def State.decideGroup (s : State) (g : Nat) : State :=
  match s.group g with
  | none => s
  | some grp =>
    match grp.terms with
    | none => s
    | some terms =>
      let s := { s with conceal := { s.conceal with
        work := s.conceal.work ++ [{ group := g, serial := grp.serial, pending := [], outstanding := 0 }] } }
      let damaged := (List.range grp.members.length).filter (fun i =>
        match grp.members[i]? with
        | some m => m.kind == .data && !(s.extentOf m.slot).isEmpty
        | none => false)
      damaged.foldl (State.decideMember g grp terms) s

/-- Forget a group's pending list and outstanding count (R177, R132). -/
def State.dropWork (s : State) (g : Nat) : State :=
  { s with conceal := { s.conceal with work := s.conceal.work.filter (fun w => w.group != g) } }

/-! ## Presenting and answering CONCEALED tails (R170, R171) -/

/-- The next tail write to present: the head of the first pending list, in the order the groups entered
CONCEALING, whose slot has no fenced write left (R170). -/
def State.nextTail (s : State) : Option (TailWork × PendingTail) :=
  s.conceal.work.findSome? (fun w =>
    match w.pending with
    | p :: _ => if s.fenced p.slot then none else some (w, p)
    | [] => none)

/-- Present a tail write: it leaves the pending list and is outstanding until answered (R170). -/
def State.presentTail (s : State) (w : TailWork) (p : PendingTail) : State :=
  match s.group w.group, s.control.config with
  | some grp, some c =>
    let s := { s with conceal := { s.conceal with
      work := s.conceal.work.map (fun (v : TailWork) =>
        if v.group = w.group ∧ v.serial = w.serial then
          { v with pending := v.pending.tail, outstanding := v.outstanding + 1 }
        else v) } }
    s.presentMem (writeRequest
      (.concealedTail w.group w.serial grp.channel grp.groupNumber p.slot p.position s.control.era)
      (c.tailAddr p.slot p.position) [tailBeat p.frameNumber p.position .concealed])
  | _, _ => s

/-- The answer lowers the group's outstanding count (R171). -/
def State.tailAnswered (s : State) (g serial : Nat) : State :=
  { s with conceal := { s.conceal with
      work := s.conceal.work.map (fun w =>
        if w.group = g ∧ w.serial = serial then { w with outstanding := w.outstanding - 1 } else w) } }

end Sys2Proof.Machine
end

