-- ==== Sys2Proof/Machine/HoldQueue.lean ====
section
/-! DEFINITION. The engine's job queue (R138 to R140) and the Hold Queue: holding (R64 to R67), release passes
(R68 to R73) and expiry (R74). -/
namespace Sys2Proof.Machine

/-! ## The job queue -/

/-- Queue a job behind the last unpromoted entry, and let an IDLE engine take it, once a write whose arrival
caused the job has been presented (R49, R138, R140; log 11). -/
def State.queueJob (s : State) (g : Nat) (kind : JobKind) : State :=
  let s := { s with engine := { s.engine with
    queue := s.engine.queue ++ [({ group := g, kind := kind, promoted := false } : Job)] } }
  s.pushBehind [.takeJob]

/-- A group's queued and unpromoted entry is marked promoted and stands directly behind the last
promoted entry; any other offer changes nothing (R67, R139). -/
def promoteJob (g : Nat) (q : List Job) : List Job :=
  match q.find? (fun j => j.group == g && !j.promoted) with
  | none => q
  | some j =>
    let rest := q.filter (fun j => j.group != g)
    rest.filter (·.promoted) ++ { j with promoted := true } :: rest.filter (fun j => !j.promoted)

/-- Offer a group for promotion (R67). -/
def State.offerPromotion (s : State) (g : Nat) : State :=
  { s with engine := { s.engine with queue := promoteJob g s.engine.queue } }

/-- A group's job leaves the job queue (R87). -/
def State.dropJob (s : State) (g : Nat) : State :=
  { s with engine := { s.engine with queue := s.engine.queue.filter (fun j => j.group != g) } }

/-- An IDLE engine takes the head entry into service: RUNNING, cursor 0, position context emptied (R140). While an
ABORT has groups left to abandon, whose queued jobs leave the queue (R87, R135), it waits until they are abandoned
(DESIGN CHOICE, log 31). -/
def State.takeJob (s : State) : State :=
  if s.aborting then { s with agenda := behindAbandons [.takeJob] s.agenda }
  else
    match s.engine.state, s.engine.queue with
    | .idle, j :: rest =>
      let s := { s with engine := { s.engine with
        state := .running, queue := rest, service := some (j.group, j.kind), cursor := some 0,
        context := PositionContext.empty } }
      s.push [.takeUp]
    | _, _ => s

/-! ## Holding (R62, R65, R66) -/

/-- The positions a held request touches, by payload or by tail (R62). -/
def Held.touched (h : Held) : Positions := h.byPayload.toList ++ h.byTail

/-- The HOLD_OVERFLOW fault of a request refused by a full queue (R66). -/
def Held.overflowFault (h : Held) : FaultRecord :=
  { kind := .holdOverflow, channel := none, groupNumber := none, slot := some h.slot, sector := none,
    detail := some (.request h.tag h.kind) }

/-- Take a request onto the list with its deadline, and offer the group of a SEAL or REPAIR case for
promotion (R65); or refuse it because the queue is full (R66). -/
def State.hold (s : State) (h : Held) : State :=
  if s.holds.length < Config.holdCapacity then
    let s := match s.accepted h.tag with
      | some a => s.putAccepted h.tag { a with disposition := .held }
      | none => s
    let s := { s with holds := s.holds ++ [h] }
    match h.waitsOn with
    | .group g => s.offerPromotion g
    | .slot _ => s
    | .tag _ => s
  else (s.turnAway h.tag).raise h.overflowFault

/-! ## Release (R68, R73) -/

/-- The tags of the held entries that pass a test, in queue order: what an event marks (R68). -/
def State.heldTags (s : State) (p : Held → Bool) : List Nat := (s.holds.filter p).map (·.tag)

/-- An entry leaves the list (R68). -/
def State.leaveHolds (s : State) (tag : Nat) : State :=
  { s with holds := s.holds.filter (fun h => h.tag != tag) }

/-- Go on with a release pass: the first entry marked in it, in queue order, leaves the list and is classified
afresh; every entry waiting on it under SAME_PAGE is marked as well; and the pass goes on against the state that
leaves (R57, R68, R73). An entry marked that has left the list is passed over. A pass begun inside the
classification is taken whole before this one goes on (log 11). -/
def State.releaseNext (s : State) (marked : List Nat) : State :=
  match s.holds.find? (fun h => marked.contains h.tag) with
  | none => s
  | some h =>
    (s.leaveHolds h.tag).push [.classify h.tag,
      .releasePass (marked.filter (· ≠ h.tag) ++ s.heldTags (fun f => f.waitsOn == .tag h.tag))]

/-- The entries a group's retirement or completed abandonment releases: those that wait on it under a
SEAL or REPAIR case (R69, R70). -/
def Held.waitsOnGroup (g : Nat) (h : Held) : Bool := h.waitsOn == .group g

/-- The entries the end of a slot's search releases (R71). -/
def Held.waitsOnSlot (slot : Nat) (h : Held) : Bool := h.waitsOn == .slot slot

/-- Whether the notice of a finished REBUILD position releases a held read: every position it touches
has been finished, that is, lies at or below the position named, and none is in the extent of its slot
(R72). -/
def State.cursorReleases (s : State) (g position : Nat) (h : Held) : Bool :=
  h.waitsOn == .group g && h.case == .repairRead &&
    h.touched.all (fun p => decide (p ≤ position) && !s.damagedAt h.slot p)

/-- The Hold Queue takes the notice of a finished REBUILD position, while the group is in RECONSTRUCTING: a
release pass of the reads it releases comes next (R72). -/
def State.noticePosition (s : State) (g position : Nat) : State :=
  match s.group g with
  | some grp =>
    if grp.state = .reconstructing then
      let s := s.touchAll ((s.holds.filter (fun h =>
        h.waitsOn == .group g && h.case == .repairRead)).map (·.slot))
      s.push [.releasePass (s.heldTags (s.cursorReleases g position))]
    else s
  | none => s

/-! ## Expiry (R74) -/

/-- The positions touched as one range, absent for a burst wholly in the unused region (R74). -/
def Held.range (h : Held) : Option SectorRange :=
  match h.touched with
  | [] => none
  | p :: ps => some { first := p, count := (p :: ps).length }

/-- The HOLD_EXPIRED report of an entry (R74). -/
def Held.expiredReport (h : Held) : Report :=
  .holdExpired h.slot h.range (h.groupAtHold.map (·.1)) (h.groupAtHold.map (·.2))

/-- The HOLD_EXPIRED fault of an entry (R74, R203). -/
def Held.expiredFault (h : Held) : FaultRecord :=
  { kind := .holdExpired, channel := none, groupNumber := none, slot := some h.slot,
    sector := h.touched.head?, detail := some (.request h.tag h.kind) }

/-- One expired entry is answered, reported and raised (R74). Where several expire in one event, this is done entry by
entry, so that the fault of one, with its FAULT report, comes before the report of the next: R74 gives no order
between them (DESIGN CHOICE, log 47). -/
def State.expireOne (s : State) (h : Held) : State :=
  ((s.turnAway h.tag).post h.expiredReport).raise h.expiredFault

/-- The expiry event: every entry whose deadline has been reached leaves, in queue order; followers
whose own deadline was not reached are marked, and a release pass follows (R74). -/
def State.expireHolds (s : State) : State :=
  let expired := s.holds.filter (fun h => decide (h.deadline ≤ s.time))
  if expired.isEmpty then s
  else
    let kept := s.holds.filter (fun h => !decide (h.deadline ≤ s.time))
    let s := { s with holds := kept }
    let s := expired.foldl State.expireOne s
    s.push [.releasePass (s.heldTags (fun h => expired.any (fun e => h.waitsOn == .tag e.tag)))]

end Sys2Proof.Machine
end

