-- ==== Sys2Proof/Machine/Groups.lean ====
section
/-! DEFINITION. The Group Controller: arrivals (R104, R117, R127), the end of a collection (R106), the CHECK
(R122 to R126), the hand-offs of a job (R129), retirement (R110, R132) and abandonment (R31, R87). -/
namespace Sys2Proof.Machine

/-! ## Collecting (R104, R106) -/

/-- The group enters an interlocked engine stage: its state, the fences, and its job (R106, R129). -/
def State.enterStage (s : State) (g : Nat) (state : GroupState) (job : JobKind) : State :=
  match s.group g with
  | none => s
  | some grp =>
    let s := s.putGroup g { grp with state := state }
    (s.fenceSlots grp.slots).queueJob g job

/-- The collection is complete: SEALING with a SEAL job, or RETIRING at once when P is 0 (R106). -/
def State.collected (s : State) (g : Nat) (grp : Group) : State :=
  if grp.parityCount = 0 then s.push [.retire g] else s.enterStage g .sealing .seal

/-- A RECORD arrival in COLLECTING (R104). -/
def State.recordArrival (s : State) (g : Nat) (grp : Group) (a : Arrival) : State :=
  match grp.members[a.member]? with
  | none => s
  | some m =>
    if m.arrived.contains a.position then s
    else
      let grp := { (grp.modMember a.member (fun m =>
        { m with arrived := Positions.insert a.position m.arrived })) with missing := grp.missing - 1 }
      let s := s.putGroup g grp
      if grp.missing = 0 then s.collected g grp else s

/-! ## Gathering and rereading (R117, R118, R127) -/

/-- Whether an arrival is damaged: every verdict that is not good (R6). -/
def Arrival.damaged (a : Arrival) : Bool :=
  match a.verdict with
  | some v => !v.good
  | none => false

/-- The extent edit of a RESTORE arrival (R27, R117 step 2). -/
def State.editExtent (s : State) (a : Arrival) : State :=
  if a.damaged then s.insertPosition a.slot a.position else (s.removePosition a.slot a.position).1

/-- The counts of a RESTORE arrival (R117 step 3). -/
def Group.countArrival (grp : Group) (a : Arrival) : Group :=
  let grp := grp.modMember a.member (fun m =>
    { m with correctedTotal := min 65535 (m.correctedTotal + a.count.getD 0) })
  if a.misplaced = some true then
    { grp with counts := { grp.counts with misplaced := grp.counts.misplaced + 1 } }
  else grp

/-- The arrival set of a RESTORE arrival in GATHERING (R117 step 1). -/
def Group.gatherPosition (grp : Group) (m : Member) (a : Arrival) : Group :=
  if m.arrived.contains a.position then grp
  else
    { (grp.modMember a.member (fun m =>
        { m with arrived := Positions.insert a.position m.arrived })) with missing := grp.missing - 1 }

/-- The requested set of an arrival in AWAITING_REREAD (R127). -/
def Group.reArrive (grp : Group) (a : Arrival) : Group :=
  grp.modMember a.member (fun m =>
    { m with requested := m.requested.filter (· ≠ a.position), outstanding := m.outstanding - 1 })

/-- A RESTORE arrival in GATHERING or AWAITING_REREAD; the last one cancels the deadline and takes the
CHECK in the same step (R117, R118, R127). -/
def State.restoreArrival (s : State) (g : Nat) (grp : Group) (a : Arrival) : State :=
  match grp.members[a.member]?, grp.state with
  | some m, .gathering =>
    let grp := (grp.gatherPosition m a).countArrival a
    let s := s.editExtent a
    if grp.missing = 0 then (s.putGroup g { grp with gatherDeadline := none }).push [.check g]
    else s.putGroup g grp
  | some m, .awaitingReread =>
    let again := m.requested.contains a.position
    let grp := (if again then grp.reArrive a else grp).countArrival a
    let s := s.editExtent a
    if again && grp.members.all (fun m => m.outstanding == 0) then
      (s.putGroup g { grp with rereadDeadline := none }).push [.check g]
    else s.putGroup g grp
  | _, _ => s

/-- The Group Controller takes an arrival under the group's state at that moment (R54, R105, R118). -/
def State.arrive (s : State) (g : Nat) (a : Arrival) : State :=
  if s.configured then
    match s.group g with
    | none => s
    | some grp =>
      match grp.role with
      | .record => if grp.state = .collecting then s.recordArrival g grp a else s
      | .restore => s.restoreArrival g grp a
  else s

/-! ## The CHECK (R122 to R126) -/

/-- The positions at which more than P members are damaged (R15). -/
def State.beyondParity (s : State) (grp : Group) : Positions :=
  Positions.below s.sectors (fun p => decide (grp.parityCount < (s.damagedSet grp p).length))

/-- Damage marks and, at the first CHECK, the first-pass sets (R122 steps 1 and 2). -/
def State.recordDamage (s : State) (grp : Group) : Group :=
  let grp := { grp with members := grp.members.map (fun m =>
    { m with damageMark := m.damageMark || !(s.extentOf m.slot).isEmpty }) }
  if grp.rounds = 0 then
    let members := grp.members.map (fun m =>
      { m with firstPass := Extent.positions (s.extentOf m.slot) })
    { grp with members := members, counts := { grp.counts with
        damagedAtCheck := (members.map (fun m => m.firstPass.length)).sum } }
  else grp

/-- The classification of first-pass damage at the closing CHECK (R125). -/
def State.classifyDamage (s : State) (grp : Group) : Group :=
  let still := (grp.members.map (fun m => (m.firstPass.filter (s.damagedAt m.slot)).length)).sum
  let all := (grp.members.map (fun m => m.firstPass.length)).sum
  { grp with counts := { grp.counts with transient := all - still, persistent := still } }

/-- The wear test of one member (R123). -/
def State.wearMember (g threshold : Nat) (s : State) (place : Nat) : State :=
  match s.group g with
  | none => s
  | some grp =>
    match grp.members[place]? with
    | none => s
    | some m =>
      let e := s.frame m.slot
      if threshold < m.correctedTotal ∧ e.worn = false ∧ e.state ≠ .quarantined then
        let s := s.putFrame m.slot { e with worn := true }
        let s := s.putGroup g { grp with counts := { grp.counts with
          wornFrames := grp.counts.wornFrames + 1 } }
        s.post (.worn grp.channel grp.groupNumber m.slot m.kind (grp.expected place) m.correctedTotal)
      else s

/-- The wear test of a CHECK, off when the threshold is 0 (R123). -/
def State.wearTest (s : State) (g members : Nat) : State :=
  let threshold := (s.control.config.map (·.wearThreshold)).getD 0
  if threshold = 0 then s else (List.range members).foldl (State.wearMember g threshold) s

/-- The ranges of a member's extent that hold a beyond-parity position (R126). -/
def State.requestedRanges (s : State) (m : Member) (beyond : Positions) : List SectorRange :=
  (s.extentOf m.slot).filter (fun r => beyond.any r.holds)

/-- The REREAD report of a member with a non-empty requested set (R126 step 2). -/
def State.reportReread (grp : Group) (beyond : Positions) (s : State) (place : Nat) : State :=
  match grp.members[place]? with
  | none => s
  | some m =>
    let ranges := s.requestedRanges m beyond
    if ranges.isEmpty then s
    else s.post (.reread grp.channel grp.groupNumber m.slot m.kind (grp.expected place)
      (grp.rounds + 1) ranges)

/-- A CHECK opens a reread round (R126). -/
def State.openRound (s : State) (g : Nat) (grp : Group) (limit : Nat) (beyond : Positions) : State :=
  let members := grp.members.map (fun m =>
    let requested := Extent.positions (s.requestedRanges m beyond)
    { m with requested := requested, outstanding := requested.length })
  let s := s.putGroup g { grp with
    members := members, rounds := grp.rounds + 1,
    rereadDeadline := some (s.time + limit * 1000), state := .awaitingReread }
  (List.range grp.members.length).foldl (State.reportReread grp beyond) s

/-- A CHECK that opens no round sends the group on (R124). -/
def State.sendOn (s : State) (g : Nat) (grp : Group) (audit : Bool) : State :=
  if audit && decide (1 ≤ grp.parityCount) then s.enterStage g .auditing .audit
  else if s.anyDamaged grp (fun _ => true) then s.enterStage g .reconstructing .rebuild
  else s.push [.retire g]

/-- The CHECK (R122, R124). It is not taken once a warm clear or fault entry has begun (R136). -/
def State.check (s : State) (g : Nat) : State :=
  if s.configured then
    match s.group g with
    | none => s
    | some grp =>
      match grp.terms with
      | none => s
      | some terms =>
        let s := s.touchAll grp.slots
        let grp := s.recordDamage grp
        let beyond := s.beyondParity grp
        let again := !beyond.isEmpty && decide (grp.rounds < terms.rereadBudget)
        let grp := if !again && decide (1 ≤ grp.rounds) then s.classifyDamage grp else grp
        let grp := if again then grp else { grp with beyond := Positions.insertAll beyond grp.beyond }
        let s := (s.putGroup g grp).wearTest g grp.members.length
        match s.group g with
        | none => s
        | some grp =>
          if again then s.openRound g grp terms.rereadLimit beyond else s.sendOn g grp terms.audit
  else s

/-! ## Retirement (R110, R132, R133) -/

/-- Release what waits on a group, then issue its status write (R110, R132, R69); both come behind the
presenting of a write whose arrival completed the group (R49; log 11). -/
def State.releaseAndReport (s : State) (g : Nat) : State :=
  s.pushBehind [.releasePass (s.heldTags (Held.waitsOnGroup g)), .statusWrite g]

/-- The number of members whose slot is in one of the states given. -/
def State.countStates (s : State) (grp : Group) (p : Member → FrameState → Bool) : Nat :=
  (grp.members.filter (fun m => p m (s.frame m.slot).state)).length

/-- A RECORD group enters RETIRING (R109, R110). The members made LOST are counted in a field of the model's own,
the failed positions stand in the failed sets, and the record's restore counters stay zero (R103; log 34). -/
def State.retireRecord (s : State) (g : Nat) (grp : Group) : State :=
  let n := s.sectors
  let s := grp.members.foldl (fun s m => s.finalState m.slot (recordFinal n m.failed)) s
  let s := s.putGroup g { grp with
    state := .retiring
    outcome := some (if grp.failedPositions.isEmpty then .sealed else .sealedDegraded)
    madeLost := s.countStates grp (fun _ st => st == .lost) }
  s.releaseAndReport g

/-- The outcome of a RESTORE group from its members' final states (R133). -/
def State.restoreOutcome (s : State) (grp : Group) : GroupOutcome :=
  let st := fun (m : Member) => (s.frame m.slot).state
  let data := grp.members.filter (fun m => m.kind == .data)
  if data.any (fun m => st m == .lost || st m == .quarantined) then .failed
  else if data.any (fun m => st m == .concealed) then .patched
  else if grp.members.all (fun m => st m == .verified) then .intact
  else .restored

/-- A RESTORE group enters RETIRING (R132, R133). -/
def State.retireRestore (s : State) (g : Nat) (grp : Group) : State :=
  let s := grp.members.foldl (fun s m =>
    s.finalState m.slot (restoreFinal (m.kind == .data) m.damageMark
      (s.conceal.covers m.slot (s.frame m.slot).extent))) s
  let s := s.dropWork g
  let s := s.putGroup g { grp with
    state := .retiring
    outcome := some (s.restoreOutcome grp)
    gatherDeadline := none
    rereadDeadline := none
    counts := { grp.counts with
      concealed := s.countStates grp (fun m st => m.kind == .data && st == .concealed)
      lost := s.countStates grp (fun _ st => st == .lost || st == .quarantined) } }
  s.releaseAndReport g

/-- A group enters RETIRING. No group does once a warm clear or fault entry has begun (R136). -/
def State.retire (s : State) (g : Nat) : State :=
  if s.configured then
    match s.group g with
    | none => s
    | some grp =>
      if grp.state = .retiring then s
      else
        match grp.role with
        | .record => s.retireRecord g grp
        | .restore => s.retireRestore g grp
  else s

/-- Issue a group's status write (R101). None is issued once the release pass or the removal of entries before
it, or anything else of the step, has begun a fault entry: R101, R110, R132 and R135 put the status write after
them, R102 and R190 have none in FAULTED (DESIGN CHOICE, log 32). -/
def State.statusWrite (s : State) (g : Nat) : State :=
  if s.configured then
    match s.group g with
    | none => s
    | some grp =>
      match grp.outcome with
      | none => s
      | some o =>
        s.presentMem (writeRequest (.status g grp.serial) grp.planAddress
          [statusBeat o .none grp.rounds grp.statusCounts])
  else s

/-- The GROUP_DONE report (R111, R134). -/
def Group.doneReport (grp : Group) (o : GroupOutcome) : Report :=
  .groupDone grp.channel grp.groupNumber o grp.rounds grp.statusCounts
    (min grp.counts.misplaced 65535) (min grp.counts.wornFrames 255)

/-! ## Concealment complete (R131, R171) -/

/-- A group enters CONCEALING: it is decided, and its concealment may be complete at once (R131, R165). -/
def State.enterConcealing (s : State) (g : Nat) : State :=
  if s.configured then
    match s.group g with
    | none => s
    | some grp =>
      let s := s.putGroup g { grp with state := .concealing }
      let s := s.fenceSlots grp.slots
      (s.decideGroup g).push [.concealed g]
  else s

/-- When a group's pending list is empty and its outstanding count 0, its concealment is complete and it
enters RETIRING (R171), unless a warm clear or fault entry has begun (R136), or an ABORT has still to abandon the
group: it was live when the ABORT was taken (R87, R135; DESIGN CHOICE, log 31). -/
def State.testConcealed (s : State) (g : Nat) : State :=
  match s.group g with
  | none => s
  | some grp =>
    if s.configured && grp.state == .concealing && !s.awaitsAbandon g &&
        s.conceal.work.all (fun w => w.group != g || (w.pending.isEmpty && w.outstanding == 0)) then
      s.push [.retire g]
    else s

/-! ## Abandonment (R31, R87, R114, R135, R177) -/

/-- The members take their abandonment states, and a CONCEALING group's entries and tails go (R31,
R177). -/
def State.abandonMembers (s : State) (g : Nat) (grp : Group) : State :=
  let s := if grp.state = .concealing then (s.removeTargets grp.slots).1 else s
  let s := s.dropWork g
  grp.members.foldl (fun s m => s.finalState m.slot (abandonFinal grp.role)) s

/-- The counts of an ABANDONED status word: all 0 for a RECORD group, whose failed sets are discarded (R114); as
they stood for a RESTORE group, with concealed 0 and lost the members made LOST or left QUARANTINED (R135). -/
def State.abandonedGroup (s : State) (grp : Group) : Group :=
  let grp := { grp with state := .retiring, outcome := some .abandoned, gatherDeadline := none,
                        rereadDeadline := none }
  match grp.role with
  | .record => { grp with
      madeLost := 0, members := grp.members.map (fun m => { m with failed := [] }) }
  | .restore => { grp with counts := { grp.counts with
      concealed := 0
      lost := s.countStates grp (fun _ st => st == .lost || st == .quarantined) } }

/-- The abandonment of a group completes: its members' states, then RETIRING with outcome ABANDONED,
its holds released and its status write issued (R87, R70). -/
def State.completeAbandon (s : State) (g : Nat) : State :=
  match s.group g with
  | none => s
  | some grp =>
    let s := s.abandonMembers g grp
    let s := s.putGroup g (s.abandonedGroup grp)
    s.releaseAndReport g

/-- The ENDING engine has nothing left in flight: the in-service job and the cursor become absent, the
engine IDLE, and the group's abandonment completes (R159). -/
def State.endService (s : State) : State :=
  { s with engine := { s.engine with
      state := .idle, service := none, cursor := none, context := PositionContext.empty } }

/-- The abandonment in service completes once nothing is in flight (R159), and the engine, IDLE again, takes its next
job (R140), inside an ABORT once every live group of the channel is abandoned (log 31). -/
def State.testEnding (s : State) : State :=
  match s.engine.state, s.engine.service with
  | .ending, some (g, _) =>
    if s.engine.inFlight = [] then s.endService.push [.abandoned g, .takeJob] else s
  | _, _ => s

/-- Abandon a live group on its channel's ABORT (R87): the in-service job's group enters ABANDONING, any
other group's abandonment completes at once. -/
def State.abandonGroup (s : State) (g : Nat) : State :=
  if s.configured then
    match s.group g with
    | none => s
    | some grp =>
      if grp.live && grp.state != .abandoning then
        if (s.engine.service.map (·.1)) = some g then
          let s := s.putGroup g { grp with state := .abandoning }
          let s := s.fenceSlots grp.slots
          State.testEnding { s with engine := { s.engine with state := .ending } }
        else (s.dropJob g).push [.abandoned g]
      else s
  else s

/-- Abandon every live group without status write, and free every group, at the end of a warm clear's
or a fault entry's quiescing (R102, R198, R199). -/
def State.abandonAll (s : State) : State :=
  let s := s.liveGroups.foldl (fun s g =>
    match s.group g with
    | some grp => s.abandonMembers g grp
    | none => s) s
  { s with groups := { s.groups with entries := [] } }

end Sys2Proof.Machine
end

