-- ==== Sys2Proof/Machine/Channels.lean ====
section
/-! DEFINITION. The Channel Unit: commands (R80, R81, R83 to R87), channel word answers (R79), dropped reads (R88),
plans (R95 to R99), and the end of a group (R91, R101). -/
namespace Sys2Proof.Machine

/-! ## Fetches, reports and the way to DISABLED -/

/-- The CHANNEL_STATE report of a channel as it stands (R89). -/
def State.channelReport (s : State) (c : Fin 8) : Report :=
  .channelState c (s.channel c).state (s.channel c).errorCode

/-- Post a CHANNEL_STATE report (R89). -/
def State.postChannel (s : State) (c : Fin 8) : State := s.post (s.channelReport c)

/-- An ACTIVE channel with a next plan address and room in its window begins a plan fetch (R84). None
begins once a fault entry has begun (R190; log 23). -/
def State.tryFetch (s : State) (c : Fin 8) : State :=
  let ch := s.channel c
  match ch.state, ch.nextPlan, ch.window with
  | .active, some a, some w =>
    if s.configured && decide (ch.occupied < w) then
      let s := s.setChannel c (fun ch => { ch with nextPlan := none, fetch := .plan a, state := .loading })
      s.presentMem (readRequest (.planFetch c) a 4)
    else s
  | _, _, _ => s

/-- Issue the channel word read and enter LOADING (R79, R83, R85). -/
def State.readChannelWord (s : State) (c : Fin 8) (atResume : Bool) : State :=
  let s := s.setChannel c (fun ch => { ch with fetch := .channelWord atResume, state := .loading })
  s.presentMem (readRequest (.channelWord c) (channelWordAddr s.controlBase c) 2)

/-- A DRAINING or CLOSING channel with nothing occupied and nothing in flight enters DISABLED, in every part state
(R86, R87, R88, R186). In CONFIGURED a CHANNEL_STATE report is posted (R89); during a warm clear or a fault entry
there is none (R102; log 22). -/
def State.disableTest (s : State) (c : Fin 8) : State :=
  let ch := s.channel c
  if (ch.state == .draining || ch.state == .closing) && ch.occupied == 0 && ch.fetch == .none then
    let t := s.setChannel c (fun ch => { ch with state := .disabled })
    if s.configured then t.postChannel c else t
  else s

/-- Every channel DISABLED, as a warm clear or fault entry leaves it (R102). Their mirror beats are handed over by
ascending channel, an order R102, R198 and R199 do not give (DESIGN CHOICE, log 39). -/
def State.disableChannels (s : State) : State :=
  (List.finRange 8).foldl (fun s c => s.setChannel c (fun ch =>
    { ch with state := .disabled, occupied := 0, nextPlan := none, fetch := .none, discard := false })) s

/-! ## Commands (R80, R81) -/

/-- The four channel commands (R79). -/
inductive ChannelCommand where
  | start | stop | abort | resume
  deriving DecidableEq, Repr

/-- The command of a command value (R79). -/
def ChannelCommand.ofValue (v : Word32) : Option ChannelCommand :=
  if v = 1 then some .start
  else if v = 2 then some .stop
  else if v = 3 then some .abort
  else if v = 4 then some .resume
  else none

/-- Whether a channel in a state accepts a command in CONFIGURED (R81). -/
def ChannelState.accepts : ChannelState → ChannelCommand → Bool
  | .disabled, .start => true
  | .loading, .stop | .active, .stop | .waiting, .stop | .stopped, .stop => true
  | .loading, .abort | .active, .abort | .waiting, .abort | .stopped, .abort
  | .draining, .abort | .closing, .abort => true
  | .waiting, .resume => true
  | _, _ => false

/-- START accepted (R83). -/
def State.startChannel (s : State) (c : Fin 8) : State :=
  State.readChannelWord (s.setChannel c (fun ch => { ch with errorCode := .none, occupied := 0 })) c false

/-- The part of STOP and ABORT they share: the state entered, no next plan address, and a read in flight
marked for discard (R86, R87). -/
def State.endChannel (s : State) (c : Fin 8) (st : ChannelState) : State :=
  s.setChannel c (fun ch =>
    { ch with state := st, nextPlan := none, discard := ch.fetch != .none })

/-- STOP accepted (R86). -/
def State.stopChannel (s : State) (c : Fin 8) : State :=
  (s.endChannel c .draining).push [.disableTest c]

/-- The live groups of a channel, by ascending index (R87). -/
def State.channelGroups (s : State) (c : Fin 8) : List Nat :=
  (s.groups.entries.filter (fun e => e.2.live && e.2.channel == c)).map (·.1)

/-- ABORT accepted: CLOSING, and every live group of the channel abandoned in ascending index (R87, R114, R135).
In CLOSING it has no further effect (R81). -/
def State.abortChannel (s : State) (c : Fin 8) : State :=
  if (s.channel c).state = .closing then s
  else (s.endChannel c .closing).push ((s.channelGroups c).map .abandon ++ [.disableTest c])

/-- The effects of an accepted command (R81). -/
def State.runCommand (s : State) (c : Fin 8) : ChannelCommand → State
  | .start => s.startChannel c
  | .stop => s.stopChannel c
  | .abort => s.abortChannel c
  | .resume => s.readChannelWord c true

/-- Set the last command result (R80). -/
def State.commandResult (s : State) (c : Fin 8) (r : CommandResult) : State :=
  s.setChannel c (fun ch => { ch with lastResult := some r })

/-- The Channel Unit takes a command, or an unknown value (R80, R81). -/
def State.takeCommand (s : State) (c : Fin 8) (cmd : Option ChannelCommand) : State :=
  match s.control.part, cmd with
  | .blank, _ => s.commandResult c .blank
  | _, none => s.commandResult c .unknown
  | .configured, some k =>
    if (s.channel c).state.accepts k then (s.commandResult c .accepted).runCommand c k
    else s.commandResult c .refusedState
  | .clearing, some _ => s.commandResult c .refusedState
  | .faulted, some _ => s.commandResult c .refusedState

/-! ## Dropped reads (R88) -/

/-- The answer to a read marked for discard is dropped (R88). -/
def State.dropRead (s : State) (c : Fin 8) : State :=
  (s.setChannel c (fun ch => { ch with fetch := .none, discard := false })).push [.disableTest c]

/-! ## Channel word answers (R79, R83, R85) -/

/-- The judgement of a channel word read; NONE when it passes (R79). -/
def ChannelWord.judge (w : ChannelWord) (status : MemStatus) (atResume : Bool) : ErrorCode :=
  if status = .error then .readError
  else if !atResume && ((Role.ofCode w.role).isNone || w.window == 0 || decide (4 < w.window)) then .field
  else if w.head % 128 ≠ 0 then .align
  else .none

/-- The PLAN_ERROR fault (R83, R99, R203). -/
def planErrorFault (c : Fin 8) (code : ErrorCode) (groupNumber : Option Word32) (slot : Option Nat) :
    FaultRecord :=
  { kind := .planError, channel := some c, groupNumber := groupNumber, slot := slot, sector := none,
    detail := some (.errorCode code) }

/-- A channel word or a plan has failed: STOPPED with its error code, a CHANNEL_STATE report and
PLAN_ERROR (R83, R99). -/
def State.stopOnError (s : State) (c : Fin 8) (code : ErrorCode) (groupNumber : Option Word32)
    (slot : Option Nat) : State :=
  let s := s.setChannel c (fun ch => { ch with errorCode := code, state := .stopped, fetch := .none })
  (s.postChannel c).raise (planErrorFault c code groupNumber slot)

/-- Go on after a channel word or a plan that passed: ACTIVE with a fetch if the window has room, or
WAITING with a CHANNEL_STATE report when there is no next plan address (R83, R85, R98). The report is posted even if
the plan's claim has begun a fault entry in this step: R98 and R89 give it, R102 has none (DESIGN CHOICE, log 45). -/
def State.goOn (s : State) (c : Fin 8) (next : Option Nat) : State :=
  match next with
  | none =>
    (s.setChannel c (fun ch => { ch with nextPlan := none, fetch := .none, state := .waiting })).postChannel c
  | some a =>
    (s.setChannel c (fun ch => { ch with nextPlan := some a, fetch := .none, state := .active })).tryFetch c

/-- The Channel Unit takes the answer to a channel word read (R83, R85, R88). -/
def State.channelWordAnswer (s : State) (c : Fin 8) (status : MemStatus) (beats : List Beat) : State :=
  let ch := s.channel c
  if ch.discard then s.dropRead c
  else
    match ch.fetch with
    | .channelWord atResume =>
      let w := ChannelWord.ofBeats beats
      match w.judge status atResume with
      | .none =>
        let s := if atResume then s
          else s.setChannel c (fun ch => { ch with role := Role.ofCode w.role, window := some w.window })
        s.goOn c (nonNull w.head)
      | code => s.stopOnError c code none none
    | _ => s

/-! ## Validation (R95, R96) -/

/-- The second listing of the first repeated number (R95). -/
def firstRepeat : List Nat → List Nat → Option Nat
  | _, [] => none
  | seen, k :: ks => if seen.contains k then some k else firstRepeat (k :: seen) ks

/-- Whether the counts fail check 2 (R95). -/
def PlanBlock.badCounts (p : PlanBlock) : Bool :=
  decide (p.dataCount < 2) || decide (12 < p.dataCount) || decide (3 < p.parityCount)

/-- Whether a RESTORE plan's fields fail check 3 (R95). -/
def PlanBlock.badFields (p : PlanBlock) : Bool :=
  decide (2 < p.policy) || p.reach == 0 || decide (4 < p.reach) || decide (3 < p.rereadBudget) ||
    p.rereadLimit == 0

/-- Checks 2 to 6 of a plan, made on its copy alone: the error code and the offending slot of the first
that fails (R95, R96). -/
def PlanBlock.check (p : PlanBlock) (role : Option Role) (slotCount : Nat) :
    Option (ErrorCode × Option Nat) :=
  if p.badCounts then some (.counts, none)
  else if role = some .restore && p.badFields then some (.field, none)
  else
    match p.memberSlots.find? (fun k => decide (slotCount ≤ k)) with
    | some k => some (.slotRange, some k)
    | none =>
      match firstRepeat [] p.memberSlots with
      | some k => some (.slotRepeat, some k)
      | none => if p.link % 128 ≠ 0 then some (.align, none) else none

/-! ## Rejection (R99) -/

/-- A plan is rejected: its status write, then the channel STOPPED (R99). -/
def State.rejectPlan (s : State) (c : Fin 8) (addr : Nat) (code : ErrorCode) (groupNumber : Option Word32)
    (slot : Option Nat) : State :=
  let s := s.presentMem (writeRequest (.rejectedStatus c addr s.control.era) addr
    [statusBeat .rejected code 0 []])
  s.stopOnError c code groupNumber slot

/-! ## Loading (R97, R98) -/

/-- The member record of a slot at load (R97). -/
def newMember (d : Nat) (slot place : Nat) : Member :=
  { slot := slot, kind := memberKind d place, arrived := [], firstPass := [], requested := [],
    outstanding := 0, correctedTotal := 0, damageMark := false, failed := [] }

/-- The group record of a loaded plan (R97, R103, R116). `now` is the timebase, absent when no deadline
may be set any more (R136). -/
def PlanBlock.group (p : PlanBlock) (serial : Nat) (c : Fin 8) (role : Role) (addr n : Nat)
    (now : Option Nat) : Group :=
  { serial := serial
    channel := c
    role := role
    groupNumber := p.groupNumber
    planAddress := addr
    firstFrame := p.firstFrame
    dataCount := p.dataCount
    parityCount := p.parityCount
    state := match role with
      | .record => .collecting
      | .restore => .gathering
    terms := match role with
      | .record => none
      | .restore => some p.terms
    gatherDeadline := match role with
      | .record => none
      | .restore => if p.gatherLimit = 0 then none else now.map (· + p.gatherLimit * 1000)
    rereadDeadline := none
    rounds := 0
    missing := match role with
      | .record => p.dataCount * n
      | .restore => (p.dataCount + p.parityCount) * n
    beyond := []
    members := p.memberSlots.zipIdx.map (fun m => newMember p.dataCount m.1 m.2)
    counts := GroupCounts.zero
    madeLost := 0
    outcome := none
    checkOk := true }

/-- The plan's flags and link, once it is loaded (R98). -/
def State.planFlags (s : State) (c : Fin 8) (p : PlanBlock) : State :=
  let s :=
    if p.signal then
      let s := s.post (.signal c p.groupNumber p.firstFrame)
      s.setChannel c (fun ch => { ch with signals := ch.signals + 1 })
    else s
  s.goOn c (if p.last then none else nonNull p.link)

/-- Load a plan whose claim has passed its tests under the Group Table entry reserved for it (R25, R97,
R98). Where the claim's withdrawals complete another group's concealment, that group's retirement and release
pass come after this plan's SIGNAL and CHANNEL_STATE reports and its next fetch (DESIGN CHOICE, log 33). -/
def State.loadPlan (s : State) (c : Fin 8) (role : Role) (addr : Nat) (p : PlanBlock) (g : Nat) : State :=
  let s := s.claim role c p.groupNumber p.firstFrame p.dataCount g p.memberSlots
  let grp := p.group s.groups.nextSerial c role addr s.sectors
    (if s.configured then some s.time else none)
  let s := s.putGroup g grp
  let s := { s with groups := { s.groups with nextSerial := s.groups.nextSerial + 1 } }
  let s := s.setChannel c (fun ch =>
    { ch with occupied := ch.occupied + 1, plansLoaded := ch.plansLoaded + 1 })
  s.planFlags c p

/-- A plan that passed checks 1 to 6: an entry is reserved and the claim presented (R97). With no free
entry the model stops (R90; log 14). -/
def State.claimPlan (s : State) (c : Fin 8) (role : Role) (addr : Nat) (p : PlanBlock) :
    Except Fault State :=
  match Table.lowestFree Config.groupCount s.groups.entries with
  | none => .error .groupTableFull
  | some g =>
    let r := s.claimTest p.memberSlots
    match r.2 with
    | some k => .ok (r.1.rejectPlan c addr .slotBusy (some p.groupNumber) (some k))
    | none => .ok (r.1.loadPlan c role addr p g)

/-- The Channel Unit takes the answer to a plan fetch (R88, R94 to R99). The read is no longer in flight when
the claim is presented, so a fault entry in the claim marks nothing of it for discard (R78, R102). -/
def State.planAnswer (s : State) (c : Fin 8) (status : MemStatus) (beats : List Beat) :
    Except Fault State :=
  let ch := s.channel c
  if ch.discard then .ok (s.dropRead c)
  else
    match ch.fetch, ch.role with
    | .plan addr, some role =>
      match status with
      | .error => .ok (s.rejectPlan c addr .readError none none)
      | .okay =>
        let p := PlanBlock.ofBeats beats
        match p.check (some role) ((s.control.config.map (·.slotCount)).getD 0) with
        | some bad => .ok (s.rejectPlan c addr bad.1 (some p.groupNumber) bad.2)
        | none =>
          State.claimPlan (s.setChannel c (fun ch => { ch with fetch := .none })) c role addr p
    | _, _ => .ok s

/-! ## Status write answers and the end of a group (R91, R99, R101) -/

/-- The SERVICE_WRITE_ERROR fault of a status write (R99, R101, R203). -/
def statusWriteFault (c : Fin 8) (groupNumber : Option Word32) (addr : Nat) : FaultRecord :=
  { kind := .serviceWriteError, channel := some c, groupNumber := groupNumber, slot := none,
    sector := none, detail := some (.planAddress addr) }

/-- The answer to a rejected plan's status write (R99). An answer of before a warm clear or fault entry,
or taken in one, raises nothing (R102, R198; log 27). -/
def State.rejectedAnswer (s : State) (c : Fin 8) (addr era : Nat) (status : MemStatus) : State :=
  if status = .error ∧ s.configured = true ∧ era = s.control.era then
    s.raise (statusWriteFault c none addr)
  else s

/-- A group's entry is freed after its status write: the channel's counts, and what its state then does
(R91). -/
def State.groupFreed (s : State) (c : Fin 8) : State :=
  let s := s.setChannel c (fun ch =>
    { ch with occupied := ch.occupied - 1, groupsRetired := ch.groupsRetired + 1 })
  match (s.channel c).state with
  | .active => s.tryFetch c
  | .draining | .closing => s.push [.disableTest c]
  | .disabled | .loading | .waiting | .stopped => s

/-- The answer to a group's status write: GROUP_DONE, the fault of an ERROR, and the entry freed (R101,
R111, R134). An answer taken outside CONFIGURED, or for a group already freed, does nothing (R102;
log 27). -/
def State.statusAnswer (s : State) (g serial : Nat) (status : MemStatus) : State :=
  if s.configured then
    match s.group g with
    | none => s
    | some grp =>
      match grp.outcome with
      | none => s
      | some o =>
        if grp.serial = serial ∧ grp.state = .retiring then
          let s := s.post (grp.doneReport o)
          let s := if status = .error then
              s.raise (statusWriteFault grp.channel (some grp.groupNumber) grp.planAddress)
            else s
          (s.dropGroup g).groupFreed grp.channel
        else s
  else s

end Sys2Proof.Machine
end

