-- ==== Sys2Proof/Machine/Control.lean ====
section
/-! DEFINITION. The Control and Report Unit: configuration loads (R195 to R197), warm clears (R198), the end of a
fault entry (R199), report answers (R200), the taken index (R201), class clears (R204) and triggers (R192). -/
namespace Sys2Proof.Machine

/-! ## Configuration loads -/

/-- Whether some channel is not DISABLED (R195). -/
def State.someChannelBusy (s : State) : Bool := s.channels.toList.any (fun c => c.state != .disabled)

/-- Set the load result (R195). -/
def State.loadResult (s : State) (r : LoadResult) : State := s.setControl (fun c => { c with loadResult := r })

/-- Whether a load is refused BUSY at its trigger (R195). -/
def State.loadBusy (s : State) : Bool :=
  s.control.part == .clearing || s.control.part == .faulted || (s.configured && s.someChannelBusy) ||
    s.control.loadPending.isSome

/-- A load trigger of value 1 (R195). -/
def State.loadTrigger (s : State) : State :=
  let s := s.enableWriting
  if s.loadBusy then s.loadResult .busy
  else
    State.presentMem { s with control := { s.control with loadPending := some false } }
      (readRequest .header s.controlBase 8)

/-- Whether two runs of bytes, each given by its start and its end, share a byte (R196). -/
def sharesByte (a aEnd b bEnd : Nat) : Bool := decide (a < bEnd) && decide (b < aEnd)

/-- The arena end a header gives (R196). -/
def Header.arenaEnd (h : Header) : Nat := h.arenaBase + h.slotCount * ((h.sectors + 1) * Config.pageBytes)

/-- The end of the ring a header gives (R196). -/
def Header.ringEnd (h : Header) : Nat := h.ringBase + h.ringSize * Config.beatBytes

/-- Check 1 fails (R196). -/
def Header.badGeometry (h : Header) : Bool :=
  decide (h.sectors < 8) || decide (128 < h.sectors) || h.slotCount == 0 ||
    decide (Config.slotLimit < h.slotCount)

/-- Check 2 fails (R196). -/
def Header.badArena (h : Header) (base : Nat) : Bool :=
  h.arenaBase % 1048576 != 0 || decide (Config.spaceBytes < h.arenaEnd) ||
    sharesByte h.arenaBase h.arenaEnd base (base + Config.controlBytes)

/-- Check 3 fails (R196). -/
def Header.badRing (h : Header) (base : Nat) : Bool :=
  !([16, 32, 64, 128, 256, 512, 1024].contains h.ringSize) || h.ringBase % 32 != 0 ||
    decide (Config.spaceBytes < h.ringEnd) ||
    sharesByte h.ringBase h.ringEnd base (base + Config.controlBytes) ||
    sharesByte h.ringBase h.ringEnd h.arenaBase h.arenaEnd

/-- Check 4 fails (R196). -/
def Header.badField (h : Header) : Bool :=
  decide (1 < h.mode) || h.tokenCeiling == 0 || h.refillAmount == 0 || decide (4096 < h.refillAmount) ||
    h.refillPeriod == 0 || decide (1024 < h.refillPeriod) || h.holdLimit == 0

/-- Validation of a header; OK when every check passes (R196). -/
def Header.validate (h : Header) (base : Nat) : LoadResult :=
  if h.badGeometry then .badGeometry
  else if h.badArena base then .badArena
  else if h.badRing base then .badRing
  else if h.badField then .badField
  else .ok

/-- The configuration a header gives (R197, R207). -/
def Header.configuration (h : Header) : Configuration :=
  { arenaBase := h.arenaBase
    slotCount := h.slotCount
    sectors := h.sectors
    ringSize := h.ringSize
    mode := if h.mode = 0 then .strict else .fair
    ringInterrupt := h.ringInterrupt
    containedInterrupt := h.containedInterrupt
    ringBase := h.ringBase
    tokenCeiling := h.tokenCeiling
    refillAmount := h.refillAmount
    refillPeriod := h.refillPeriod
    holdLimit := h.holdLimit
    wearThreshold := h.wearThreshold
    fillPattern := h.fillPattern }

/-- The Frame Map with every entry FREE and no search (R40). -/
def FrameMap.empty : FrameMap := { entries := [], pendingSearch := [], search := none }

/-- The ring starts anew: indices 0, flags cleared (R197, R198). -/
def Control.clearIndices (c : Control) : Control :=
  { c with writeIndex := 0, taken := 0, overflow := false, takenRefused := false }

/-- The post list is emptied without writing, and what was presented is let go (R197, R198). A report write of
before is answered in its own time and moves nothing; a report posted after the load or the clear does not wait
for that answer (DESIGN CHOICE, log 36). -/
def Control.dropPosts (c : Control) : Control :=
  { c with posts := [], reportOut := false, ringEra := c.ringEra + 1 }

/-- A successful load (R197). The release pass is taken against the state it leaves. -/
def State.takeConfiguration (s : State) (c : Configuration) : State :=
  let s := { s with map := FrameMap.empty, conceal := { table := [], work := [] } }
  let s := { s with engine := { s.engine with
    tokens := c.tokenCeiling, nextRefill := some (s.time + c.refillPeriod) } }
  let s := { s with memPort := { s.memPort with lastServed := .engine } }
  let s := s.setControl (fun k =>
    { k.clearIndices.dropPosts with config := some c, part := .configured, loadResult := .ok })
  s.push [.releasePass (s.heldTags (fun _ => true))]

/-- The unit takes the answer to the header read (R195). A clear noted during a fault entry has not begun its warm
clear, so an answer that comes in that entry is judged by the FAULTED row, BUSY (R198; DESIGN CHOICE, log 42). -/
def State.headerAnswer (s : State) (status : MemStatus) (beats : List Beat) : State :=
  match s.control.loadPending with
  | none => s
  | some discarded =>
    let s := { s with control := { s.control with loadPending := none } }
    if discarded then s
    else if s.control.part = .faulted then s.loadResult .busy
    else if s.configured && s.someChannelBusy then s.loadResult .busy
    else if status = .error then s.loadResult .readError
    else
      let h := Header.ofBeats beats
      match h.validate s.controlBase with
      | .ok => s.takeConfiguration h.configuration
      | r => s.loadResult r

/-! ## Warm clear (R198) -/

/-- Whether what a clear or fault entry waits for has come: the engine QUIET and no channel read
outstanding (R198, R199). -/
def State.quieted (s : State) : Bool :=
  s.engine.state == .quiet && s.channels.toList.all (fun c => c.fetch == .none)

/-- The engine's queue, job, cursor and context are dropped and it becomes IDLE (R160). -/
def State.emptyEngine (s : State) : State :=
  let s := s.endService
  { s with engine := { s.engine with queue := [], inFlight := [] } }

/-- Steps 4 to 7 of a warm clear (R198). -/
def State.finishClear (s : State) : State :=
  let s := s.abandonAll.emptyEngine.disableChannels
  let s := { s with map := FrameMap.empty, conceal := { table := [], work := [] } }
  let s := { s with engine := { s.engine with
    tokens := (s.control.config.map Configuration.tokenCeiling).getD 0 } }
  s.setControl (fun c => { c.clearIndices with
    part := if c.config.isSome then .configured else .blank })

/-- Steps 1 to 3 of a warm clear (R198). In BLANK every block is empty and the clear ends at once
(log 26). -/
def State.beginClear (s : State) : State :=
  let wasBlank := s.control.part = .blank
  let s := s.setControl (fun c => { c.dropPosts with
    part := .clearing, clearNoted := false, loadPending := c.loadPending.map (fun _ => true) })
  let s := s.haltWork
  if wasBlank then s.finishClear else s

/-- A clear trigger of value 1 (R192, R198). -/
def State.clearTrigger (s : State) : State :=
  let s := s.enableWriting
  match s.control.part with
  | .clearing => s
  | .blank => s.beginClear
  | .configured => s.beginClear
  | .faulted =>
    if s.control.entering then { s with control := { s.control with clearNoted := true } }
    else s.beginClear

/-- The warm clear goes on to its end once the part is quiet (R198). -/
def State.clearAbandon (s : State) : State :=
  if s.control.part = .clearing ∧ s.quieted = true then s.finishClear else s

/-! ## The end of a fault entry (R199) -/

/-- Steps 3 and 4 of a fault entry, and the clear that was noted meanwhile (R198, R199). -/
def State.finishEntry (s : State) : State :=
  let s := s.abandonAll.emptyEngine.disableChannels
  let s := { s with control := { s.control with entering := false } }
  if s.control.clearNoted then s.beginClear else s

/-- The fault entry goes on to its end once the part is quiet (R199). -/
def State.faultAbandon (s : State) : State :=
  if s.control.part = .faulted ∧ s.control.entering = true ∧ s.quieted = true then s.finishEntry else s

/-! ## Reports, taken index, class clears -/

/-- The SERVICE_WRITE_ERROR fault of a report write (R200, R203). -/
def Report.writeFault (r : Report) : FaultRecord :=
  { kind := .serviceWriteError, channel := none, groupNumber := none, slot := none, sector := none,
    detail := some (.report r.kind) }

/-- The answer to a report write: the head leaves, the index advances on OKAY, and the next head is
presented (R200). The mirror's part beat, or the fault page beat of an ERROR, is handed over before the next
report's write is presented (DESIGN CHOICE, log 37). An answer of before a warm clear or a load moves nothing
(R197, R198). -/
def State.reportAnswer (s : State) (ringEra : Nat) (status : MemStatus) : State :=
  if ringEra = s.control.ringEra then
    match s.control.posts, s.control.config with
    | r :: rest, some c =>
      let s := { s with control := { s.control with posts := rest, reportOut := false } }
      let s :=
        match status with
        | .okay => s.setControl (fun k => { k with writeIndex := (k.writeIndex + 1) % c.ringSize })
        | .error => s.raise r.writeFault
      s.presentReport
    | _, _ => s
  else s

/-- Whether a taken index lies on the forward path from the taken copy to the write index (R201). -/
def Control.takenAccepted (c : Control) (ringSize v : Nat) : Bool :=
  decide (v < ringSize) &&
    decide ((v + ringSize - c.taken) % ringSize ≤ (c.writeIndex + ringSize - c.taken) % ringSize)

/-- A write of the taken index (R201). -/
def State.takenTrigger (s : State) (v : Word32) : State :=
  match s.control.part, s.control.config with
  | .blank, _ => s
  | .clearing, _ => s
  | _, none => s
  | _, some c =>
    if s.control.takenAccepted c.ringSize v.toNat then
      s.setControl (fun k => { k with taken := v.toNat, overflow := false, takenRefused := false })
    else s.setControl (fun k => { k with takenRefused := true })

/-- A class clear word of value 1 (R204). Its record beat is presented before its next-set beat, an order R182 and
R204 do not give (DESIGN CHOICE, log 39). -/
def State.classClear (s : State) (cl : FaultClass) : State :=
  let s := { s with control := s.control.setLog cl { first := none, next := [] } }
  (s.handRecord cl).handNext cl

/-! ## Triggers (R192) -/

/-- The unit acts on a trigger; a load, clear or class clear word of a value other than 1 is ignored
(R192). -/
def State.takeTrigger (s : State) (t : Trigger) : State :=
  match t.word with
  | .load => if t.value = 1 then s.loadTrigger else s
  | .clear => if t.value = 1 then s.clearTrigger else s
  | .command c => s.takeCommand c (ChannelCommand.ofValue t.value)
  | .taken => s.takenTrigger t.value
  | .containedClear => if t.value = 1 then s.classClear .contained else s
  | .uncontainedClear => if t.value = 1 then s.classClear .uncontained else s

end Sys2Proof.Machine
end

