-- ==== Sys2Proof/Machine/Parity.lean ====
section
/-! DEFINITION. The parity code over GF(256): coefficients and parity (R14), the content of damaged members
(R15, R154) and the syndromes of an audit (R149). -/
namespace Sys2Proof.Machine

/-! ## The field (R14) -/

/-- Multiplication by α = x, reduced modulo x^8 + x^4 + x^3 + x^2 + 1 (R14). -/
def gfDouble (a : Byte) : Byte := if a.msb then (a <<< 1) ^^^ 0x1D#8 else a <<< 1

/-- `gfDouble` taken `k` times. -/
def gfShift (a : Byte) : Nat → Byte
  | 0 => a
  | k + 1 => gfDouble (gfShift a k)

/-- Multiplication in the field: the sum of `a × x^k` over the bits `k` set in `b` (R14). -/
def gfMul (a b : Byte) : Byte :=
  (List.range 8).foldl (fun acc k => if b.getLsbD k then acc ^^^ gfShift a k else acc) 0

/-- α to a power. -/
def gfAlpha (n : Nat) : Byte := gfShift 1 n

/-- A power in the field. -/
def gfPow (a : Byte) : Nat → Byte
  | 0 => 1
  | k + 1 => gfMul a (gfPow a k)

/-- The inverse of a nonzero element: its 254th power, since the nonzero elements are a group of 255. -/
def gfInv (a : Byte) : Byte := gfPow a 254

/-- The field sum of a list. -/
def gfSum (l : List Byte) : Byte := l.foldl (· ^^^ ·) 0

/-! ## The code, one byte at a time (R14) -/

/-- The coefficient of data member i in parity member j: α^(i·j) (R14). -/
def coefficient (i j : Nat) : Byte := gfAlpha (i * j)

/-- Parity member j of the data bytes in member order (R14). -/
def parityByte (j : Nat) (data : List Byte) : Byte :=
  gfSum (data.mapIdx (fun i d => gfMul (coefficient i j) d))

/-! ## Solving for damaged data (R15) -/

/-- The determinant of the leading `n × n` square of a matrix of rows, by its first row. In a field of
characteristic 2 no term is negated. -/
def gfDet : Nat → List (List Byte) → Byte
  | 0, _ => 1
  | _ + 1, [] => 1
  | n + 1, row :: rows =>
    gfSum ((List.range (n + 1)).map (fun c =>
      gfMul (row.getD c 0) (gfDet n (rows.map (fun r => r.eraseIdx c)))))

/-- The coefficients by which the unknown number `e` is formed from the right-hand sides, for the
system whose rows are `m` (Cramer's rule). -/
def gfSolveRow (m : List (List Byte)) (e : Nat) : List Byte :=
  let n := m.length
  let inv := gfInv (gfDet n m)
  (List.range n).map (fun r =>
    gfMul inv (gfDet (n - 1) ((m.eraseIdx r).map (fun row => row.eraseIdx e))))

/-- The rows of the system that gives the damaged data members from the parity members read: row `r`
holds the coefficients of the damaged data members in parity member `parities[r]`. -/
def gfSystem (lostData parities : List Nat) : List (List Byte) :=
  parities.map (fun j => lostData.map (fun i => coefficient i j))

/-- The byte read of a member, by its place in the member order. -/
def readByte (known : List (Nat × Byte)) (m : Nat) : Byte := (known.lookup m).getD 0

/-- The data bytes of a position from the bytes read of D members (R15, R154): those read stand, the
others solve the parity equations of the parity members read. -/
def dataBytes (d : Nat) (known : List (Nat × Byte)) : List Byte :=
  let lostData := (List.range d).filter (fun i => (known.lookup i).isNone)
  let parities := (known.map (·.1)).filterMap (fun m => if d ≤ m then some (m - d) else none)
  let readData := (List.range d).filter (fun i => (known.lookup i).isSome)
  let rhs := parities.map (fun j =>
    readByte known (d + j) ^^^ gfSum (readData.map (fun i => gfMul (coefficient i j) (readByte known i))))
  let m := gfSystem lostData parities
  (List.range d).map (fun i =>
    match known.lookup i with
    | some b => b
    | none =>
      let e := lostData.idxOf i
      gfSum (List.zipWith gfMul (gfSolveRow m e) rhs))

/-- The byte of any member, from the bytes read of D members (R154). -/
def memberByte (d : Nat) (known : List (Nat × Byte)) (m : Nat) : Byte :=
  let data := dataBytes d known
  if m < d then data.getD m 0 else parityByte (m - d) data

/-! ## Sectors -/

/-- Byte `k` of a beat. -/
def beatByte (b : Beat) (k : Nat) : Byte := b.extractLsb' (8 * k) 8

/-- The beat whose byte `k` is `f k`. -/
def beatOfBytes (f : Nat → Byte) : Beat :=
  (List.range Config.beatBytes).foldl
    (fun acc k => acc ||| ((f k).setWidth 256 <<< (8 * k))) 0

/-- A sector made byte by byte: byte `k` of beat `n` is `f n k`. -/
def sectorOfBytes (f : Nat → Nat → Byte) : Sector :=
  (List.range (Config.pageBytes / Config.beatBytes)).map (fun n => beatOfBytes (f n))

/-- Byte `k` of beat `n` of a sector. -/
def sectorByte (s : Sector) (n k : Nat) : Byte := beatByte (s.getD n 0) k

/-- The parity sector of member j from the data sectors in member order (R14, R146). -/
def paritySector (j : Nat) (data : List Sector) : Sector :=
  sectorOfBytes (fun n k => parityByte j (data.map (fun s => sectorByte s n k)))

/-- The sector of any member from the sectors read of D members (R154). -/
def memberSector (d : Nat) (known : List (Nat × Sector)) (m : Nat) : Sector :=
  sectorOfBytes (fun n k => memberByte d (known.map (fun s => (s.1, sectorByte s.2 n k))) m)

/-! ## Syndromes (R149) -/

/-- One column of syndromes: stored parity combined with parity recomputed, for each parity member
(R149). `known` holds the byte of every member, data then parity. -/
def syndromeColumn (d p : Nat) (known : List Byte) : List Byte :=
  (List.range p).map (fun j => known.getD (d + j) 0 ^^^ parityByte j (known.take d))

/-- What a nonzero column of syndromes indicates (R149): parity member j, data member i, or no single
member. The test is made only when P is 2 or 3. Members are given by their place in the member order. -/
def columnIndicates (d p : Nat) (col : List Byte) : Option Nat :=
  if 2 ≤ p then
    match (List.range p).filter (fun j => col.getD j 0 ≠ 0) with
    | [j] => some (d + j)
    | _ =>
      (List.range d).find? (fun i =>
        col.getD 0 0 ≠ 0 && col.getD 1 0 = gfMul (gfAlpha i) (col.getD 0 0) &&
          (p < 3 || col.getD 2 0 = gfMul (gfAlpha (2 * i)) (col.getD 0 0)))
  else none

/-- The result of an audited position (R149). -/
inductive AuditResult where
  | clean
  | located (member : Nat)
  | unlocated
  deriving DecidableEq, Repr

/-- The result of the nonzero columns of a position, by what each indicates (R149). -/
def auditColumns (d p : Nat) (columns : List (List Byte)) : AuditResult :=
  match (columns.filter (fun col => col.any (· ≠ 0))).map (columnIndicates d p) with
  | [] => .clean
  | none :: _ => .unlocated
  | some m :: rest => if rest.all (· = some m) then .located m else .unlocated

/-- The result of an audited position from the sectors read of every member (R149). -/
def auditSectors (d p : Nat) (sectors : List Sector) : AuditResult :=
  auditColumns d p
    ((List.range (Config.pageBytes / Config.beatBytes)).flatMap (fun n =>
      (List.range Config.beatBytes).map (fun k =>
        syndromeColumn d p (sectors.map (fun s => sectorByte s n k)))))

end Sys2Proof.Machine
end

