-- ==== Sys2Proof/Machine/Engine.lean ====
section
/-! DEFINITION. The Repair Engine: positions (R145 to R156), the issue of requests (R141, R143, R144), refills
(R142), answers (R143, R159, R160, R162) and the ends of jobs (R130, R147, R151, R158). -/
namespace Sys2Proof.Machine

/-! ## Results handed to the Group Controller -/

/-- Change the position context. -/
def State.setContext (s : State) (f : PositionContext → PositionContext) : State :=
  { s with engine := { s.engine with context := f s.engine.context } }

/-- Set a member's damage mark (R129). -/
def State.markDamage (s : State) (g place : Nat) : State :=
  s.modGroup g (fun grp => grp.modMember place (fun m => { m with damageMark := true }))

/-- Request the insertion of (s, 1) into a member's extent; its damage mark is set (R28, R129). -/
def State.damageMember (s : State) (g : Nat) (place slot position : Nat) : State :=
  (s.insertPosition slot position).markDamage g place

/-- Request the removal of s from a member's extent; rebuilt is raised if it is handed back as removed
(R28, R129, R154). -/
def State.rebuiltMember (s : State) (g slot position : Nat) : State :=
  let r := s.removePosition slot position
  if r.2 then
    r.1.modGroup g (fun grp => { grp with counts := { grp.counts with rebuilt := grp.counts.rebuilt + 1 } })
  else r.1

/-- A position is counted beyond parity (R129). -/
def State.beyondPosition (s : State) (g position : Nat) : State :=
  s.modGroup g (fun grp => { grp with beyond := Positions.insert position grp.beyond })

/-- The failed parity members of a SEAL position join their failed sets (R109, R147). -/
def State.failParity (s : State) (g position : Nat) (failed : Positions) : State :=
  s.modGroup g (fun grp => failed.foldl (fun grp m =>
    grp.modMember m (fun mem => { mem with failed := Positions.insert position mem.failed })) grp)

/-! ## The end of a position (R145) -/

/-- A position is finished: its results are reported, the Hold Queue is told if the job is REBUILD, and
the cursor advances (R145). -/
def State.finishPosition (s : State) (g : Nat) (kind : JobKind) (position : Nat) : State :=
  let failed := s.engine.context.failedParity
  let s := s.setContext (fun _ => PositionContext.empty)
  match kind with
  | .seal => (s.failParity g position failed).push [.advance]
  | .audit => s.push [.advance]
  | .rebuild => (s.push [.advance]).noticePosition g position

/-- A position is finished once nothing is due for it and nothing is in flight (R145). -/
def State.testFinished (s : State) (g : Nat) (kind : JobKind) (position : Nat) : State :=
  if s.engine.context.due = [] ∧ s.engine.inFlight = [] then s.finishPosition g kind position else s

/-! ## Taking up a position (R145, R146, R148, R152) -/

/-- A sector read of a member. -/
def dueRead (member : Nat) : DueRequest := { member := member, op := .readSector }

/-- Make reads of members due. -/
def State.readMembers (s : State) (damaged chosen : Positions) : State :=
  s.setContext (fun _ =>
    { PositionContext.empty with damaged := damaged, chosen := chosen, due := chosen.map dueRead })

/-- The first D survivors in member order (R153). -/
def survivors (grp : Group) (damaged : Positions) : Positions :=
  ((List.range grp.members.length).filter (fun m => !damaged.contains m)).take grp.dataCount

/-- Take up a position (R146, R148, R152). -/
def State.takeUpPosition (s : State) (g : Nat) (grp : Group) (kind : JobKind) (position : Nat) : State :=
  match kind with
  | .seal => s.readMembers [] (List.range grp.dataCount)
  | .audit =>
    let s := s.touchAll grp.slots
    match s.damagedSet grp position with
    | [] => s.readMembers [] (List.range grp.members.length)
    | _ :: _ => s.finishPosition g kind position
  | .rebuild =>
    let s := s.touchAll grp.slots
    let damaged := s.damagedSet grp position
    if damaged = [] then s.finishPosition g kind position
    else if grp.parityCount < damaged.length then
      (s.beyondPosition g position).finishPosition g kind position
    else s.readMembers damaged (survivors grp damaged)

/-- The RUNNING engine takes up the position the cursor names (R145). -/
def State.takeUp (s : State) : State :=
  match s.engine.state, s.engine.service, s.engine.cursor with
  | .running, some (g, kind), some position =>
    match s.group g with
    | some grp => s.takeUpPosition g grp kind position
    | none => s
  | _, _, _ => s

/-! ## The end of a job (R130, R147, R151, R158) -/

/-- Position N − 1 of the job is finished (R130). What the group does comes before the engine takes its
next job (log 23). -/
def State.endJob (s : State) (g : Nat) (grp : Group) (kind : JobKind) : State :=
  match kind with
  | .seal => s.endService.push [.retire g, .takeJob]
  | .audit =>
    let s := s.touchAll grp.slots
    if s.anyDamaged grp (fun _ => true) then
      let s := s.putGroup g { grp with state := .reconstructing }
      let s := { s with engine := { s.engine with
        service := some (g, .rebuild), cursor := some 0, context := PositionContext.empty } }
      s.push [.takeUp]
    else s.endService.push [.retire g, .takeJob]
  | .rebuild =>
    let s := s.touchAll grp.slots
    if s.anyDamaged grp (fun m => m.kind == .data) then s.endService.push [.conceal g, .takeJob]
    else s.endService.push [.retire g, .takeJob]

/-- The RUNNING engine advances its cursor, or ends the job (R145). -/
def State.advance (s : State) : State :=
  match s.engine.state, s.engine.service, s.engine.cursor with
  | .running, some (g, kind), some position =>
    if position + 1 < s.sectors then
      State.push { s with engine := { s.engine with cursor := some (position + 1) } } [.takeUp]
    else
      match s.group g with
      | some grp => s.endJob g grp kind
      | none => s
  | _, _, _ => s

/-! ## Issuing requests (R141, R143, R144) -/

/-- The bursts of an engine request, in ascending address order (R143). -/
def engineBursts (c : Configuration) (id slot position : Nat) (frame : Word32) : EngineOp → List MemRequest
  | .readSector =>
    (List.range Config.sectorBursts).map (fun k =>
      readRequest (.engineRead id k)
        (c.payloadAddr slot position + k * (Config.burstBeats * Config.beatBytes)) Config.burstBeats)
  | .writeSector data =>
    (List.range Config.sectorBursts).map (fun k =>
      writeRequest (.engineWrite id k)
        (c.payloadAddr slot position + k * (Config.burstBeats * Config.beatBytes))
        ((List.range Config.burstBeats).map (fun i =>
          { data := data.getD (k * Config.burstBeats + i) 0, enables := allEnabled })))
  | .writeTail =>
    [writeRequest (.engineTail id) (c.tailAddr slot position) [tailBeat frame position .rebuilt]]

/-- What a request costs: one token for each sector read or write, none for a tail (R141). -/
def EngineOp.cost : EngineOp → Nat
  | .readSector => 1
  | .writeSector _ => 1
  | .writeTail => 0

/-- Whether the engine can issue a request to a slot now (R141, R144). -/
def State.mayIssue (s : State) (slot : Nat) : Bool :=
  s.engine.state == .running && decide (s.engine.inFlight.length < Config.engineInFlight) &&
    decide (1 ≤ s.engine.tokens) && !s.fenced slot

/-- Issue a request: it is in flight, it has cost its token, and its bursts are presented together
(R141, R143, R144). -/
def State.issueEngine (s : State) (c : Configuration) (grp : Group) (slot position : Nat)
    (d : DueRequest) (rest : List DueRequest) : State :=
  let id := s.engine.nextId
  let s := { s with engine := { s.engine with
    nextId := id + 1
    tokens := s.engine.tokens - d.op.cost
    context := { s.engine.context with due := rest }
    inFlight := s.engine.inFlight ++
      [{ id := id, member := d.member, op := d.op, answered := [], failed := false }] } }
  (engineBursts c id slot position (grp.expected d.member) d.op).foldl State.presentMem s

/-- The engine issues the next due request, when R144 allows it. -/
def State.issueNext (s : State) : State :=
  match s.engine.context.due, s.engine.service, s.engine.cursor, s.control.config with
  | d :: rest, some (g, _), some position, some c =>
    match s.group g with
    | some grp =>
      match grp.members[d.member]? with
      | some m => if s.mayIssue m.slot then s.issueEngine c grp m.slot position d rest else s
      | none => s
    | none => s
  | _, _, _, _ => s

/-- Issue as many requests as R144 allows, at most a given number. -/
def State.issueSeveral (s : State) : Nat → State
  | 0 => s
  | k + 1 => State.issueSeveral s.issueNext k

/-! ## Refill (R141, R142) -/

/-- A refill event, once its time has come: the counter rises to at most the ceiling, and a request that
waited on an empty counter is issued in the same step (R141, R142; log 16). -/
def State.refill (s : State) : State :=
  match s.engine.nextRefill, s.control.config with
  | some t, some c =>
    if t ≤ s.time then
      let wasEmpty := s.engine.tokens = 0
      let s := { s with engine := { s.engine with
        tokens := min c.tokenCeiling (s.engine.tokens + c.refillAmount)
        nextRefill := some (t + c.refillPeriod) } }
      if wasEmpty then s.issueSeveral Config.engineInFlight else s
    else s
  | _, _ => s

/-! ## What the reads of a position come to (R147, R149, R150, R153) -/

/-- The sectors of members, in member order; a sector not read is empty. -/
def PositionContext.sectors (c : PositionContext) (members : Nat) : List Sector :=
  (List.range members).map (fun m => (c.received.lookup m).getD [])

/-- Make the writes of a position due, in member order (R144, R146, R154). -/
def State.writeMembers (s : State) (writes : List DueRequest) : State :=
  s.setContext (fun c => { c with due := writes, writing := true })

/-- A SEAL position whose reads are answered (R146, R147). -/
def State.sealReads (s : State) (g : Nat) (grp : Group) (position : Nat) : State :=
  let parity := (List.range grp.parityCount).map (fun j => grp.dataCount + j)
  if s.engine.context.readFailed then
    (s.setContext (fun c => { c with failedParity := parity })).finishPosition g .seal position
  else
    let data := s.engine.context.sectors grp.dataCount
    let s := s.writeMembers ((List.range grp.parityCount).map (fun j =>
      { member := grp.dataCount + j, op := .writeSector (paritySector j data) }))
    s.testFinished g .seal position

/-- An AUDIT position whose reads are answered (R149, R150). -/
def State.auditReads (s : State) (g : Nat) (grp : Group) (position : Nat) : State :=
  let s :=
    if s.engine.context.readFailed then s
    else
      match auditSectors grp.dataCount grp.parityCount
          (s.engine.context.sectors grp.members.length) with
      | .clean => s
      | .unlocated => s.beyondPosition g position
      | .located m =>
        match grp.members[m]? with
        | some mem =>
          (s.damageMember g m mem.slot position).modGroup g (fun grp =>
            { grp with counts := { grp.counts with silentFound := grp.counts.silentFound + 1 } })
        | none => s
  s.finishPosition g .audit position

/-- The REBUILD writes of a position: the sector of every damaged member, computed from the survivors
read (R154). -/
def State.rebuildWrites (s : State) (grp : Group) (damaged : Positions) : State :=
  let known := s.engine.context.received.filter (fun r => s.engine.context.chosen.contains r.1)
  s.writeMembers (damaged.map (fun m =>
    { member := m, op := .writeSector (memberSector grp.dataCount known m) }))

/-- A REBUILD position whose reads are answered: E(s) is taken again, and if it has grown the survivors
are chosen again (R153). -/
def State.rebuildReads (s : State) (g : Nat) (grp : Group) (position : Nat) : State :=
  let s := s.touchAll grp.slots
  let damaged := s.damagedSet grp position
  if damaged.all (fun m => s.engine.context.damaged.contains m) then s.rebuildWrites grp damaged
  else if grp.parityCount < damaged.length then
    (s.beyondPosition g position).finishPosition g .rebuild position
  else
    let chosen := survivors grp damaged
    let s := s.setContext (fun c =>
      let received := c.received.filter (fun r => chosen.contains r.1)
      { c with
        damaged := damaged
        chosen := chosen
        received := received
        readFailed := false
        due := (chosen.filter (fun m => (received.lookup m).isNone)).map dueRead })
    if s.engine.context.due = [] then s.rebuildWrites grp damaged else s

/-- Go on with a position of the RUNNING engine once nothing is due for it and nothing in flight. So reads chosen but
not yet issued when a read is answered ERROR are issued and answered before the engine chooses again: R153 and R155
speak of every read issued and leave it open (DESIGN CHOICE, log 41). -/
def State.goOnPosition (s : State) (g : Nat) (grp : Group) (kind : JobKind) (position : Nat) : State :=
  if s.engine.context.due = [] ∧ s.engine.inFlight = [] then
    if s.engine.context.writing then s.finishPosition g kind position
    else
      match kind with
      | .seal => s.sealReads g grp position
      | .audit => s.auditReads g grp position
      | .rebuild => s.rebuildReads g grp position
  else s

/-! ## Answers (R143, R147, R150, R154 to R156, R159, R160, R162) -/

/-- The ENGINE_READ_ERROR fault (R162). -/
def engineReadFault (grp : Group) (m : Member) (position : Nat) (kind : JobKind) : FaultRecord :=
  { kind := .engineReadError, channel := some grp.channel, groupNumber := some grp.groupNumber,
    slot := some m.slot, sector := some position, detail := some (.engineRead kind m.kind) }

/-- The ENGINE_WRITE_ERROR fault (R162). -/
def engineWriteFault (grp : Group) (m : Member) (position : Nat) (kind : JobKind) (tail : Bool) :
    FaultRecord :=
  { kind := .engineWriteError, channel := some grp.channel, groupNumber := some grp.groupNumber,
    slot := some m.slot, sector := some position, detail := some (.engineWrite kind m.kind tail) }

/-- Put a tail write among the requests due, in member order: ahead of what is due for later members
(R144). -/
def insertTail (member : Nat) : List DueRequest → List DueRequest
  | [] => [{ member := member, op := .writeTail }]
  | d :: ds =>
    if member < d.member then { member := member, op := .writeTail } :: d :: ds
    else d :: insertTail member ds

/-- The sector put together from the bursts of a read (R143). -/
def EngineRequest.data (r : EngineRequest) : Sector :=
  (List.range Config.sectorBursts).flatMap (fun k =>
    (List.range Config.burstBeats).map (fun i => ((r.answered.lookup k).getD []).getD i 0))

/-- The effect of a completed engine request on the extents, the counts and the Fault Log, whatever the
engine's state (R147, R150, R154 to R156, R159). -/
def State.engineEffect (s : State) (g : Nat) (grp : Group) (kind : JobKind) (position : Nat)
    (m : Member) (r : EngineRequest) : State :=
  match r.op with
  | .readSector =>
    if r.failed then
      let s := s.raise (engineReadFault grp m position kind)
      match kind with
      | .seal => s
      | .audit | .rebuild => s.damageMember g r.member m.slot position
    else s
  | .writeSector _ =>
    if r.failed then s.raise (engineWriteFault grp m position kind false)
    else
      match kind with
      | .rebuild => s.rebuiltMember g m.slot position
      | .seal | .audit => s
  | .writeTail => if r.failed then s.raise (engineWriteFault grp m position kind true) else s

/-- What a completed request adds to the position context of a RUNNING engine (R147, R154). -/
def EngineRequest.note (r : EngineRequest) (kind : JobKind) (c : PositionContext) : PositionContext :=
  match r.op with
  | .readSector =>
    if r.failed then { c with readFailed := true }
    else { c with received := c.received ++ [(r.member, r.data)] }
  | .writeSector _ =>
    match kind with
    | .seal => if r.failed then { c with failedParity := Positions.insert r.member c.failedParity } else c
    | .rebuild => if r.failed then c else { c with due := insertTail r.member c.due }
    | .audit => c
  | .writeTail => c

/-- A whole engine request has been answered (R143). A RUNNING engine goes on with its position; an ENDING
or QUIESCING one only waits for its last answer (R159, R160). -/
def State.engineDone (s : State) (r : EngineRequest) : State :=
  match s.engine.service, s.engine.cursor with
  | some (g, kind), some position =>
    match s.group g with
    | some grp =>
      match grp.members[r.member]? with
      | some m =>
        let s := s.engineEffect g grp kind position m r
        match s.engine.state with
        | .running =>
          let s := s.setContext (r.note kind)
          match s.group g with
          | some grp => s.goOnPosition g grp kind position
          | none => s
        | .ending => s.testEnding
        | .quiescing => s.testQuiet
        | .idle | .quiet => s
      | none => s
    | none => s
  | _, _ => s

/-- One burst of an engine request is answered; the request is answered when all its bursts are, ERROR
if any of them is (R143). -/
def State.engineBurst (s : State) (id burst bursts : Nat) (status : MemStatus) (beats : List Beat) :
    State :=
  match s.engine.inFlight.find? (fun r => r.id == id) with
  | none => s
  | some r =>
    let r := { r with
      answered := r.answered ++ [(burst, beats)]
      failed := r.failed || status == .error }
    if r.answered.length = bursts then
      State.engineDone { s with engine := { s.engine with
        inFlight := s.engine.inFlight.filter (fun q => q.id != id) } } r
    else
      { s with engine := { s.engine with
        inFlight := s.engine.inFlight.map (fun q => if q.id = id then r else q) } }

end Sys2Proof.Machine
end

