-- ==== Sys2Proof/Machine/Arbiter.lean ====
section
/-! DEFINITION. The Memory Port and Arbiter: the choice of a class (R184, R185), the issue (R183), and the answers
handed to their owners (R180, R186). -/
namespace Sys2Proof.Machine

/-! ## Arbitration -/

/-- The list of a class (R182). -/
def MemoryPort.list (p : MemoryPort) : RequestClass → List MemRequest
  | .pass => p.passList
  | .service => p.serviceList
  | .engine => p.engineList

/-- Replace the list of a class. -/
def MemoryPort.setList (p : MemoryPort) (c : RequestClass) (l : List MemRequest) : MemoryPort :=
  match c with
  | .pass => { p with passList := l }
  | .service => { p with serviceList := l }
  | .engine => { p with engineList := l }

/-- The classes in the order in which a choice looks at them: PASS first under STRICT (R184), the ring
from the class after the last served under FAIR (R185). -/
def walk (mode : ArbitrationMode) (last : RequestClass) : List RequestClass :=
  match mode, last with
  | .strict, _ => [.pass, .service, .engine]
  | .fair, .engine => [.pass, .service, .engine]
  | .fair, .pass => [.service, .engine, .pass]
  | .fair, .service => [.engine, .pass, .service]

/-- The arbitration mode in force: STRICT while the part holds no configuration (R183). -/
def State.mode (s : State) : ArbitrationMode := (s.control.config.map (·.mode)).getD .strict

/-- The class chosen at an issue (R184, R185). -/
def State.chosenClass (s : State) : Option RequestClass :=
  (walk s.mode s.memPort.lastServed).find? (fun c => !(s.memPort.list c).isEmpty)

/-- The owner acts on the notice of an issue (R61, R183): a passed request is ISSUED, its write data is
let go (R42) and a fence mark lost. -/
def State.noticeIssue (s : State) (r : MemRequest) : State :=
  match r.ref with
  | .pass tag =>
    match s.accepted tag with
    | some a => s.putAccepted tag { a with disposition := .issued, fence := none, beats := [] }
    | none => s
  | _ => s

/-- Hand the head of a class's list to the memory under a tag (R183, R185). -/
def State.issueHead (s : State) (c : RequestClass) (tag : Nat) : State :=
  match s.memPort.list c with
  | [] => s
  | r :: rest =>
    let p := s.memPort.setList c rest
    let out : IssuedRequest :=
      { tag := tag, kind := r.kind, addr := r.addr, length := r.length, beats := r.beats }
    let p := { p with
      tags := Table.put tag { ref := r.ref, kind := r.kind } p.tags
      lastServed := if s.mode = .fair then c else p.lastServed
      issued := p.issued ++ [out] }
    State.noticeIssue { s with memPort := p } r

/-- An issue: when a tag is free and some list is not empty, the chosen class's head goes out under the
lowest free tag (R183). -/
def State.issueOne (s : State) : State :=
  match Table.lowestFree Config.tagCount s.memPort.tags, s.chosenClass with
  | some tag, some c => s.issueHead c tag
  | _, _ => s

/-! ## Answers (R180, R186) -/

/-- The request a response's tag stands for. -/
def State.tagRef (s : State) (tag : Fin 32) : Option OwnerRef :=
  (Table.get s.memPort.tags tag.val).map (·.ref)

/-- The tag's entry is freed in the step that takes the response (R186). -/
def State.freeTag (s : State) (tag : Fin 32) : State :=
  { s with memPort := { s.memPort with tags := Table.remove tag.val s.memPort.tags } }

/-- The answer to a passed recorder request decides the recorder's response; a write's triggers are
handed over in the same step (R48, R49; log 7). -/
def State.passAnswered (s : State) (t : Nat) (status : MemStatus) (beats : List Beat) : State :=
  match s.accepted t with
  | none => s
  | some a =>
    match a.kind, status with
    | .read, .okay => s.respond t .okay beats
    | .write, .okay => (s.respond t .okay []).push (a.triggers.map .trigger)
    | _, .error => s.turnAway t

/-- The answer to a source read serves the redirected read (R58). -/
def State.sourceAnswered (s : State) (t : Nat) (status : MemStatus) (beats : List Beat) : State :=
  match s.accepted t, status with
  | some _, .okay => s.respond t .okay beats
  | _, .error => s.turnAway t
  | none, .okay => s

/-- The SERVICE_WRITE_ERROR fault of a CONCEALED tail write (R171, R203). -/
def tailWriteFault (c : Fin 8) (groupNumber : Word32) (slot position : Nat) : FaultRecord :=
  { kind := .serviceWriteError, channel := some c, groupNumber := some groupNumber, slot := some slot,
    sector := some position, detail := none }

/-- The answer to a CONCEALED tail write: the count, the fault of an ERROR, and perhaps the end of the
group's concealment (R171, R177, R178). -/
def State.concealedTailAnswered (s : State) (g serial : Nat) (c : Fin 8) (groupNumber : Word32)
    (slot position era : Nat) (status : MemStatus) : State :=
  let s := s.tailAnswered g serial
  let s := if status = .error ∧ s.configured = true ∧ era = s.control.era then
      s.raise (tailWriteFault c groupNumber slot position)
    else s
  s.push [.concealed g]

end Sys2Proof.Machine
end

