-- ==== Sys2Proof/Machine/Classify.lean ====
section
/-! DEFINITION. The Recorder Port: acceptance (R44, R45), classification (R47 to R55), passing (R49), redirection
(R58) and the arrivals of a write (R8, R9, R54). -/
namespace Sys2Proof.Machine

/-! ## The tables of R52 and R53 -/

/-- The hold case of an arena read, if the group rules hold it (R52, R64). -/
def readInterlock (fs : FrameState) (gs : Option GroupState) (parityMember payloadDamaged tailDamaged : Bool) :
    Option HoldCase :=
  match fs, gs with
  | .filling, some .sealing => if parityMember then some .sealParityRead else none
  | .arriving, some .auditing | .arriving, some .reconstructing
  | .arriving, some .concealing | .arriving, some .abandoning =>
    if payloadDamaged || tailDamaged then some .repairRead else none
  | _, _ => none

/-- The hold case of an arena write, if the group rules hold it (R53, R64). -/
def writeInterlock (fs : FrameState) (gs : Option GroupState) : Option HoldCase :=
  match fs, gs with
  | .filling, some .sealing | .filling, some .abandoning => some .sealWrite
  | .arriving, some .auditing | .arriving, some .reconstructing
  | .arriving, some .concealing | .arriving, some .abandoning => some .repairWrite
  | _, _ => none

/-- What becomes of an arena read that is not held (R52). -/
inductive ReadRoute where
  | pass | poison | redirect
  deriving DecidableEq, Repr

/-- R52, the rows that do not hold. -/
def readRoute (fs : FrameState) (gs : Option GroupState) (payloadDamaged : Bool) : ReadRoute :=
  if payloadDamaged then
    match fs, gs with
    | .arriving, some .gathering | .arriving, some .awaitingReread => .poison
    | .concealed, _ => .redirect
    | .lost, _ => .poison
    | _, _ => .pass
  else .pass

/-- Whether a write to a slot of this state and group carries arrivals (R53, R54). -/
def takesArrivals (fs : FrameState) (gs : Option GroupState) : Bool :=
  match fs, gs with
  | .filling, some .collecting => true
  | .arriving, some .gathering | .arriving, some .awaitingReread => true
  | _, _ => false

/-! ## Arrivals (R8, R9, R11, R12) -/

/-- The arrival of one beat over a member's tail of a position; a beat with no byte enabled is none
(R8). -/
def beatArrival (grp : Group) (slot place position : Nat) (b : WriteBeat) : Option Arrival :=
  if b.enables = 0 then none
  else
    let torn := decide (b.enables ≠ BitVec.allOnes 32)
    match grp.role with
    | .record =>
      if place < grp.dataCount then
        some { slot := slot, member := place, position := position, verdict := none, count := none,
               torn := torn, misplaced := none }
      else none
    | .restore =>
      if torn then
        some { slot := slot, member := place, position := position, verdict := some .unreadable,
               count := none, torn := true, misplaced := some false }
      else
        let t := Tail.ofBeat b.data
        let misplaced := decide (t.sectorIndex ≠ position) || decide (t.frameNumber ≠ grp.expected place)
        let verdict := if misplaced then .unreadable else t.verdict
        some { slot := slot, member := place, position := position, verdict := some verdict,
               count := if verdict = .corrected then some t.count else none,
               torn := false, misplaced := some misplaced }

/-- The arrivals a write to a slot delivers, in beat order (R8, R54). -/
def writeArrivals (c : Configuration) (grp : Group) (p : Place) (beats : List WriteBeat) : List Arrival :=
  match p.page, grp.place p.slot with
  | .tail, some place =>
    (beats.zipIdx).filterMap (fun b =>
      let position := p.offset / Config.beatBytes + b.2
      if position < c.sectors then beatArrival grp p.slot place position b.1 else none)
  | _, _ => none.toList

/-! ## Passing (R49) -/

/-- The group that owns a slot, if its entry has an owner (R50). -/
def State.ownerGroup (s : State) (slot : Nat) : Option (Nat × Group) :=
  match (s.frame slot).owner with
  | some g => (s.group g).map (fun grp => (g, grp))
  | none => none

/-- The fence of a write as it is presented: its slot, when its group entered an interlocked state in
this classification (R61, R106, R118). -/
def State.fenceAtPresent (s : State) (a : Accepted) : Option Nat :=
  match a.kind, s.slotOf a.addr with
  | .write, some slot =>
    if s.configured then
      match s.ownerGroup slot with
      | some (_, grp) => if grp.state.interlocked then some slot else none
      | none => none
    else none
  | _, _ => none

/-- Present an accepted request to the arbiter as PASS (R49). -/
def State.presentPass (s : State) (tag : Nat) : State :=
  match s.accepted tag with
  | none => s
  | some a =>
    let s := s.putAccepted tag { a with disposition := .waitingIssue, fence := s.fenceAtPresent a }
    s.presentMem { ref := .pass tag, kind := a.kind, addr := a.addr, length := a.length, beats := a.beats }

/-! ## Redirection (R58, R164, R172) -/

/-- Serve a read of a concealed position (R58). A read whose lookup meets a failing entry is answered POISON before
the fault entry answers what is held (R76, R164): no rule orders the two (DESIGN CHOICE, log 46). -/
def State.redirect (s : State) (tag : Nat) (a : Accepted) (c : Configuration) (slot position : Nat) :
    State :=
  match Concealment.lookup position (s.conceal.entriesOf slot) with
  | .found (.slot k) =>
    let addr := c.slotStart k + (a.addr - c.slotStart slot)
    let s := s.putAccepted tag { a with disposition := .redirected, redirect := some (.source addr) }
    s.presentMem (readRequest (.sourceRead tag) addr a.length)
  | .found .fill => s.respond tag .okay (List.replicate a.length c.fillPattern)
  | .bad e => (s.turnAway tag).raise e.parityFault
  | .missing => s.turnAway tag

/-! ## Arena classification (R51) -/

/-- The request already in the Hold Queue, accepted before this one, on the same page, nearest the tail
of the queue (R51, R60, R64; log 12). An entry keeps the slot and page it was held under: in the release pass of a
load, those of the old geometry are compared with the place of the request in the new one (R77; DESIGN CHOICE,
log 44). -/
def State.samePage (s : State) (a : Accepted) (p : Place) : Option Held :=
  (s.holds.filter (fun h => h.slot == p.slot && h.page == p.page &&
    match s.accepted h.tag with
    | some b => decide (b.seq < a.seq)
    | none => true)).getLast?

/-- The Hold Queue entry of a request (R62, R63). -/
def State.heldEntry (s : State) (tag : Nat) (a : Accepted) (c : Configuration) (p : Place)
    (case : HoldCase) (waitsOn : WaitsOn) : Held :=
  { tag := tag, kind := a.kind, addr := a.addr, length := a.length, slot := p.slot, page := p.page,
    byPayload := p.byPayload, byTail := c.byTail p a.length, case := case, waitsOn := waitsOn,
    groupAtHold :=
      if (s.frame p.slot).state = .quarantined then none
      else (s.ownerGroup p.slot).map (fun g => (g.2.channel, g.2.groupNumber))
    deadline := s.time + c.holdLimit }

/-- The hold case the group rules give a request (R51 test 4). -/
def State.interlock (s : State) (a : Accepted) (c : Configuration) (p : Place) : Option HoldCase :=
  let e := s.frame p.slot
  let gs := (s.ownerGroup p.slot).map (fun g => g.2.state)
  match a.kind with
  | .read =>
    readInterlock e.state gs (e.kind != some .data)
      (p.byPayload.any (fun q => s.damagedAt p.slot q)) ((c.byTail p a.length).any (s.damagedAt p.slot))
  | .write => writeInterlock e.state gs

/-- A request that is not held: passed, answered POISON or redirected, with its side effects (R51 test
5, R52 to R55). A write is presented behind its arrivals or its stale mark, and ahead of every release pass,
job and end of a concealment they bring about (R49; log 11). -/
def State.routeArena (s : State) (tag : Nat) (a : Accepted) (c : Configuration) (p : Place) : State :=
  let e := s.frame p.slot
  let owner := s.ownerGroup p.slot
  match a.kind with
  | .read =>
    match readRoute e.state (owner.map (fun g => g.2.state))
        (p.byPayload.any (fun q => s.damagedAt p.slot q)) with
    | .pass => s.push [.present tag]
    | .poison => s.turnAway tag
    | .redirect => s.redirect tag a c p.slot (p.byPayload.getD 0)
  | .write =>
    if takesArrivals e.state (owner.map (fun g => g.2.state)) then
      match owner with
      | some (g, grp) => s.push ((writeArrivals c grp p a.beats).map (.arrive g) ++ [.present tag])
      | none => s.push [.present tag]
    else if a.beats.any (fun b => b.enables ≠ 0) then (s.staleMark p.slot).push [.present tag]
    else s.push [.present tag]

/-- Arena classification (R51). -/
def State.classifyArena (s : State) (tag : Nat) (a : Accepted) (c : Configuration) : State :=
  let p := c.resolve a.addr
  let s := s.touch p.slot
  if (s.frame p.slot).state = .quarantined then
    s.hold (s.heldEntry tag a c p .quarantine (.slot p.slot))
  else
    match s.samePage a p with
    | some h => s.hold (s.heldEntry tag a c p .samePage (.tag h.tag))
    | none =>
      match s.interlock a c p, s.ownerGroup p.slot with
      | some case, some (g, _) => s.hold (s.heldEntry tag a c p case (.group g))
      | _, _ => s.routeArena tag a c p

/-- Classification (R47). -/
def State.classify (s : State) (tag : Nat) : State :=
  match s.accepted tag with
  | none => s
  | some a =>
    if a.triggers ≠ [] then s.presentPass tag
    else
      match s.control.part, s.control.config with
      | .configured, some c =>
        if c.inArena a.addr then s.classifyArena tag a c else s.presentPass tag
      | _, _ => s.presentPass tag

/-! ## Acceptance (R42, R44, R45) -/

/-- Whether the Recorder Port accepts requests (R45). -/
def State.accepting (s : State) : Bool :=
  !s.pins.resetLow && s.control.part != .clearing && !s.control.entering

/-- Whether a request is malformed (R44). -/
def State.malformed (s : State) (r : PortRequest) : Bool :=
  r.length == 0 || decide (17 ≤ r.length) ||
    r.addr / Config.pageBytes != (r.addr + (r.length - 1) * Config.beatBytes) / Config.pageBytes ||
    (s.accepted r.tag).isSome

/-- The MALFORMED fault of a request (R44, R203). -/
def PortRequest.malformedFault (r : PortRequest) : FaultRecord :=
  { kind := .malformed, channel := none, groupNumber := none, slot := none, sector := none,
    detail := some (.malformed r.addr r.tag) }

/-- The answer to a malformed request: a read POISON with no data beats, a write REFUSED (R44). -/
def PortRequest.malformedResponse (r : PortRequest) : Response :=
  { tag := r.tag
    status := match r.kind with
      | .read => .poison
      | .write => .refused
    beats := [] }

/-- The accepted-request table entry of a request at its acceptance (R42, R48). -/
def State.acceptedEntry (s : State) (r : PortRequest) : Accepted :=
  { kind := r.kind, addr := r.addr, length := r.length, beats := r.beats,
    disposition := .waitingIssue
    triggers := match r.kind with
      | .read => []
      | .write => triggerList s.controlBase r.addr r.beats
    redirect := none, fence := none, seq := s.port.nextSeq }

/-- Take a request whole: answer it if it is malformed, else enter it in the table and classify it
(R41, R42, R44). -/
def State.takeRequest (s : State) (r : PortRequest) : State :=
  if s.malformed r then (s.send r.malformedResponse).raise r.malformedFault
  else
    let s := s.putAccepted r.tag (s.acceptedEntry r)
    let s := { s with port := { s.port with nextSeq := s.port.nextSeq + 1 } }
    s.push [.classify r.tag]

/-- Take the request presented first, if the port accepts (R45). -/
def State.acceptNext (s : State) : State :=
  if s.accepting then
    match s.port.presented with
    | r :: rest => State.takeRequest { s with port := { s.port with presented := rest } } r
    | [] => s
  else s

/-- The recorder presents a request; the port takes what is presented, in order, as far as it accepts
(R41, R45). -/
def State.presentRequest (s : State) (r : PortRequest) : State :=
  let s := { s with port := { s.port with presented := s.port.presented ++ [r] } }
  s.push (List.replicate s.port.presented.length .accept)

end Sys2Proof.Machine
end

