-- ==== Sys2Proof/Machine/Search.lean ====
section
/-! DEFINITION. The membership search of the Frame Map: its steps (R35), its outcomes (R37 to R39) and what every
outcome does (R36). -/
namespace Sys2Proof.Machine

/-! ## Outcomes -/

/-- The members noted that belong to groups still live (R35). -/
def State.countNoted (s : State) (q : Search) : List Nat :=
  (q.noted.filter (fun m =>
    match s.group m.1 with
    | some grp => grp.serial == m.2 && grp.live
    | none => false)).map (·.1)

/-- The MAP_PARITY fault (R37, R38, R203). -/
def mapParityFault (slot : Nat) (channel : Option (Fin 8)) (groupNumber : Option Word32) : FaultRecord :=
  { kind := .mapParity, channel := channel, groupNumber := groupNumber, slot := some slot, sector := none,
    detail := none }

/-- The entry of a slot that was given up (R37). -/
def FrameEntry.stale : FrameEntry := { FrameEntry.free with state := .stale }

/-- A search that counts no member gives the slot up (R37). -/
def State.giveUp (s : State) (slot : Nat) : State :=
  let s := s.putFrame slot FrameEntry.stale
  (s.post (FrameEntry.stale.staleReport slot)).raise (mapParityFault slot none none)

/-- The extent of a rebuilt entry (R38). -/
def rebuiltExtent (n : Nat) (grp : Group) (m : Member) : Extent :=
  match grp.role with
  | .record => []
  | .restore => if grp.state = .gathering ∧ m.arrived = [] then [] else Extent.whole n

/-- The entry rebuilt from a member's record (R38). -/
def rebuiltEntry (n g : Nat) (grp : Group) (place : Nat) (m : Member) : FrameEntry :=
  { state := match grp.role with
      | .record => .filling
      | .restore => .arriving
    channel := some grp.channel
    kind := some m.kind
    frameNumber := match m.kind with
      | .data => some (grp.expected place)
      | .parity _ => none
    groupNumber := some grp.groupNumber
    owner := some g
    extent := rebuiltExtent n grp m
    worn := false
    parityOk := true }

/-- A search that counts one member rebuilds the entry from it (R38). -/
def State.rebuildEntry (s : State) (slot g : Nat) : State :=
  match s.group g with
  | none => s
  | some grp =>
    match grp.place slot with
    | none => s
    | some place =>
      match grp.members[place]? with
      | none => s
      | some m =>
        let e := rebuiltEntry s.sectors g grp place m
        let s := s.putFrame slot e
        let s := if e.extent.isEmpty then s
          else s.modGroup g (fun grp => grp.modMember place (fun m => { m with damageMark := true }))
        s.raise (mapParityFault slot (some grp.channel) (some grp.groupNumber))

/-- The MAP_MEMBERSHIP fault (R39, R203). -/
def mapMembershipFault (slot members : Nat) : FaultRecord :=
  { kind := .mapMembership, channel := none, groupNumber := none, slot := some slot, sector := none,
    detail := some (.members members) }

/-- The GROUP_TABLE_PARITY fault (R35, R203). -/
def groupTableFault (slot g : Nat) : FaultRecord :=
  { kind := .groupTableParity, channel := none, groupNumber := none, slot := some slot, sector := none,
    detail := some (.groupIndex g) }

/-- What the count of a search does to its slot's entry (R37, R38); two or more members leave it
QUARANTINED (R39). -/
def State.settleEntry (s : State) (slot : Nat) : List Nat → State
  | [] => s.giveUp slot
  | [g] => s.rebuildEntry slot g
  | _ :: _ :: _ => s

/-- The slot leaves the pending-search list, no search runs, and the next one starts (R36). -/
def State.closeSearch (s : State) (slot : Nat) : State :=
  State.startSearch { s with map := { s.map with
    pendingSearch := s.map.pendingSearch.filter (· ≠ slot), search := none } }

/-- A search ends with an outcome: the entry, then the concealments of the slot, then the next search
and the holds on the slot (R36); MAP_MEMBERSHIP is raised after these (R39; logs 23 and 28). MAP_PARITY of a search
that counts no member or one is raised, and its FAULT report posted, before the WITHDRAWN reports: R36 to R38 give
no order (DESIGN CHOICE, log 40). The search runs until its slot leaves the list, so that a slot quarantined
meanwhile only joins the list (R33); the release pass stands ready from the start, behind the groups whose
concealment a withdrawal completes. -/
def State.endSearch (s : State) (q : Search) : State :=
  let counted := s.countNoted q
  let s := s.push [.releasePass (s.heldTags (Held.waitsOnSlot q.slot))]
  let s := s.settleEntry q.slot counted
  let s := s.endConcealments [q.slot]
  let s := s.closeSearch q.slot
  if 2 ≤ counted.length then s.raise (mapMembershipFault q.slot counted.length) else s

/-! ## Steps -/

/-- Note a group that lists the slot (R35). -/
def Search.note (q : Search) (g : Nat) (grp : Group) : Search :=
  { q with
    next := g + 1
    noted := if grp.slots.contains q.slot then q.noted ++ [(g, grp.serial)] else q.noted }

/-- One step of the running search: the next occupied Group Table entry in index order (R35). With no
entry left the search ends (log 19). -/
def State.searchStep (s : State) : State :=
  match s.control.part, s.map.search with
  | .configured, some q =>
    match s.groups.entries.find? (fun e => decide (q.next ≤ e.1)) with
    | none => s.endSearch q
    | some (g, grp) =>
      if grp.checkOk then
        let q := q.note g grp
        if s.groups.entries.all (fun e => decide (e.1 ≤ g)) then s.endSearch q
        else { s with map := { s.map with search := some q } }
      else s.raise (groupTableFault q.slot g)
  | _, _ => s

end Sys2Proof.Machine
end

