-- ==== Sys2Proof/Machine/Work.lean ====
section
/-! DEFINITION. The work of one step: performing tasks (log 11), the order of SERVICE requests presented in one step
(R182; log 8), and the end of a step, where IRQ_N takes its level (R206). -/
namespace Sys2Proof.Machine

/-! ## Tasks (log 11) -/

/-- Perform one task. -/
def State.perform (s : State) : Task → State
  | .accept => s.acceptNext
  | .classify tag => s.classify tag
  | .present tag => s.presentPass tag
  | .arrive g a => s.arrive g a
  | .releasePass marked => s.releaseNext marked
  | .check g => s.check g
  | .retire g => s.retire g
  | .statusWrite g => s.statusWrite g
  | .takeJob => s.takeJob
  | .takeUp => s.takeUp
  | .advance => s.advance
  | .conceal g => s.enterConcealing g
  | .concealed g => s.testConcealed g
  | .abandon g => s.abandonGroup g
  | .abandoned g => s.completeAbandon g
  | .disableTest c => s.disableTest c
  | .trigger t => s.takeTrigger t

/-- Perform tasks until none is left, at most a given number. -/
def State.run : Nat → State → State
  | 0, s => s
  | k + 1, s =>
    match s.agenda with
    | [] => s
    | t :: ts => State.run k (State.perform { s with agenda := ts } t)

/-! ## SERVICE requests presented in one step (R182; log 8) -/

/-- The number of requests at the tail of a list that another owner presented: what a new request of
`owner` may overtake (R182). -/
def overtakable (owner : Owner) (l : List MemRequest) : Nat :=
  (l.reverse.takeWhile (fun r => r.ref.owner != owner)).length

/-- Place requests presented in one step, in order, each overtaking as many requests of other owners as
its free value says; free values are drawn from number `k` on. -/
def arrange : Nat → List MemRequest → List MemRequest → List MemRequest × Nat
  | k, placed, [] => (placed, k)
  | k, placed, r :: rs =>
    let room := overtakable r.ref.owner placed
    if room = 0 then arrange k (placed ++ [r]) rs
    else
      let at_ := placed.length - min (Config.freeOrder k) room
      arrange (k + 1) (placed.take at_ ++ r :: placed.drop at_) rs

/-- The requests a step appended to the SERVICE list, those behind the first `kept`, stand in either
order (R182; log 8). -/
def State.arrangeService (kept : Nat) (s : State) : State :=
  let l := s.memPort.serviceList
  let r := arrange s.drawn [] (l.drop kept)
  { s with drawn := r.2, memPort := { s.memPort with serviceList := l.take kept ++ r.1 } }

/-! ## The end of a step -/

/-- Work a command's effect to its end: its tasks, the order of the SERVICE requests it presented, and
IRQ_N (R206). `before` is the state the command met. No task outlives its step (log 11). -/
def State.settle (before after : State) : State :=
  let s := (after.run Config.stepWork).arrangeService before.memPort.serviceList.length
  State.driveInterrupt { s with agenda := [] }

/-- A command's outcome: the next state, worked to its end. -/
def conclude (before after : State) : Host.Outcome State Fault Refusal := .next (before.settle after)

/-- The effect of an answer: the tag's entry is freed and the answer handed to its owner (R186). An
answer whose tag stands for another kind of request, or for none, is not this command's event (log 4). -/
def State.answered (s : State) (tag : Fin 32) (take : OwnerRef → Option (State → State)) :
    Host.Outcome State Fault Refusal :=
  match s.tagRef tag with
  | none => conclude s s
  | some ref =>
    match take ref with
    | none => conclude s s
    | some f => conclude s (f (s.freeTag tag))

end Sys2Proof.Machine
end

