-- ==== Sys2Proof/Machine/Answers.lean ====
section
/-! DEFINITION. The memory's answers to the part's own requests, and responses to no request (R180, R186). -/
namespace Sys2Proof.Machine

/-- UNKNOWN_TAG_RESPONSE: a response whose tag is not in use is discarded (R180). -/
def execUnknownTagResponse (_tag : Fin 32) (_status : MemStatus) (_beats : List Beat) (s : State) :
    Host.Outcome State Fault Refusal := conclude s s

/-- CHANNEL_WORD_READ_ANSWER (R79, R83, R85, R88). -/
def execChannelWordReadAnswer (tag : Fin 32) (status : MemStatus) (beats : List Beat) (s : State) :
    Host.Outcome State Fault Refusal :=
  s.answered tag (fun
    | .channelWord c => some (fun s => s.channelWordAnswer c status beats)
    | _ => none)

/-- PLAN_FETCH_ANSWER (R88, R94 to R99). -/
def execPlanFetchAnswer (tag : Fin 32) (status : MemStatus) (beats : List Beat) (s : State) :
    Host.Outcome State Fault Refusal :=
  match s.tagRef tag with
  | some (.planFetch c) =>
    match (s.freeTag tag).planAnswer c status beats with
    | .ok t => conclude s t
    | .error f => .fault f
  | _ => conclude s s

/-- REJECTED_STATUS_WRITE_ANSWER (R99). -/
def execRejectedStatusWriteAnswer (tag : Fin 32) (status : MemStatus) (s : State) :
    Host.Outcome State Fault Refusal :=
  s.answered tag (fun
    | .rejectedStatus c addr era => some (fun s => s.rejectedAnswer c addr era status)
    | _ => none)

/-- STATUS_WRITE_ANSWER (R91, R101, R111, R134). -/
def execStatusWriteAnswer (tag : Fin 32) (status : MemStatus) (s : State) :
    Host.Outcome State Fault Refusal :=
  s.answered tag (fun
    | .status g serial => some (fun s => s.statusAnswer g serial status)
    | _ => none)

/-- HEADER_READ_ANSWER (R195 to R197). -/
def execHeaderReadAnswer (tag : Fin 32) (status : MemStatus) (beats : List Beat) (s : State) :
    Host.Outcome State Fault Refusal :=
  s.answered tag (fun
    | .header => some (fun s => s.headerAnswer status beats)
    | _ => none)

/-- REPORT_WRITE_ANSWER (R200). -/
def execReportWriteAnswer (tag : Fin 32) (status : MemStatus) (s : State) :
    Host.Outcome State Fault Refusal :=
  s.answered tag (fun
    | .report ringEra => some (fun s => s.reportAnswer ringEra status)
    | _ => none)

/-- MIRROR_WRITE_ANSWER: an ERROR raises no fault, and the beat is written again at its next change
(R205). -/
def execMirrorWriteAnswer (tag : Fin 32) (_status : MemStatus) (s : State) :
    Host.Outcome State Fault Refusal :=
  s.answered tag (fun
    | .mirror _ => some (fun s => s)
    | _ => none)

/-- FAULT_PAGE_WRITE_ANSWER: an ERROR raises no fault, and the beat is written again at its next change
(R204). -/
def execFaultPageWriteAnswer (tag : Fin 32) (_status : MemStatus) (s : State) :
    Host.Outcome State Fault Refusal :=
  s.answered tag (fun
    | .faultPage _ => some (fun s => s)
    | _ => none)

/-- CONCEALED_TAIL_WRITE_ANSWER (R171, R175, R177, R178). -/
def execConcealedTailWriteAnswer (tag : Fin 32) (status : MemStatus) (s : State) :
    Host.Outcome State Fault Refusal :=
  s.answered tag (fun
    | .concealedTail g serial c gn slot position era =>
      some (fun s => s.concealedTailAnswered g serial c gn slot position era status)
    | _ => none)

/-- ENGINE_READ_ANSWER: one burst of a sector read (R143). -/
def execEngineReadAnswer (tag : Fin 32) (status : MemStatus) (beats : List Beat) (s : State) :
    Host.Outcome State Fault Refusal :=
  s.answered tag (fun
    | .engineRead id burst => some (fun s => s.engineBurst id burst Config.sectorBursts status beats)
    | _ => none)

/-- ENGINE_WRITE_ANSWER: one burst of a sector write (R143, R154). -/
def execEngineWriteAnswer (tag : Fin 32) (status : MemStatus) (s : State) :
    Host.Outcome State Fault Refusal :=
  s.answered tag (fun
    | .engineWrite id burst => some (fun s => s.engineBurst id burst Config.sectorBursts status [])
    | _ => none)

/-- ENGINE_TAIL_WRITE_ANSWER: the one burst of a tail write (R143, R154, R156). -/
def execEngineTailWriteAnswer (tag : Fin 32) (status : MemStatus) (s : State) :
    Host.Outcome State Fault Refusal :=
  s.answered tag (fun
    | .engineTail id => some (fun s => s.engineBurst id 0 1 status [])
    | _ => none)

end Sys2Proof.Machine
end

