-- ==== Sys2Proof/Machine/Deadlines.lean ====
section
/-! DEFINITION. The group deadlines: the gather deadline (R119) and the reread deadline (R128). -/
namespace Sys2Proof.Machine

/-- Insert positions of a member into its extent, each run of consecutive ones as one range, runs
ascending (R119, R128). -/
def State.insertRuns (s : State) (slot : Nat) (positions : Positions) : State :=
  match Positions.runs positions with
  | [] => s
  | r :: rs => s.insertRanges slot (r :: rs)

/-- The positions of a member that have not arrived (R119). -/
def Member.notArrived (n : Nat) (m : Member) : Positions :=
  Positions.below n (fun p => !m.arrived.contains p)

/-- Whether a deadline is set and the timebase has reached it. -/
def State.reached (s : State) (deadline : Option Nat) : Bool := deadline.any (fun t => decide (t ≤ s.time))

/-- A gathering group after its deadline: every position arrived, nothing ungathered, no deadline (R119). -/
def Group.gathered (n : Nat) (grp : Group) : Group :=
  { grp with
    members := grp.members.map (fun m =>
      { m with arrived := Positions.insertAll (m.notArrived n) m.arrived })
    missing := 0
    gatherDeadline := none }

/-- The gather deadline of a group is reached while it is GATHERING (R119). -/
def State.gatherExpired (s : State) (g : Nat) : State :=
  match s.group g with
  | none => s
  | some grp =>
    if s.configured && grp.state == .gathering && s.reached grp.gatherDeadline then
      let n := s.sectors
      let s := grp.members.foldl (fun s m => s.insertRuns m.slot (m.notArrived n)) s
      (s.putGroup g (grp.gathered n)).push [.check g]
    else s

/-- A rereading group after its deadline: nothing requested, nothing outstanding, no deadline (R128). -/
def Group.reread (grp : Group) : Group :=
  { grp with
    members := grp.members.map (fun m => { m with requested := [], outstanding := 0 })
    rereadDeadline := none }

/-- The reread deadline of a group is reached while it is AWAITING_REREAD (R128). -/
def State.rereadExpired (s : State) (g : Nat) : State :=
  match s.group g with
  | none => s
  | some grp =>
    if s.configured && grp.state == .awaitingReread && s.reached grp.rereadDeadline then
      let s := grp.members.foldl (fun s m => s.insertRuns m.slot m.requested) s
      (s.putGroup g grp.reread).push [.check g]
    else s

end Sys2Proof.Machine
end

