-- ==== Sys2Proof/Machine/Events.lean ====
section
/-! DEFINITION. The part's own events: issues, presentations, deadlines, search steps, and the ends of a warm clear
and a fault entry. An event whose condition does not hold cannot occur, and changes nothing (log 4). -/
namespace Sys2Proof.Machine

/-- ISSUE: the memory can take a request (R183). -/
def execIssue (s : State) : Host.Outcome State Fault Refusal := conclude s s.issueOne

/-- ENGINE_REQUEST_ISSUE (R144). -/
def execEngineRequestIssue (s : State) : Host.Outcome State Fault Refusal := conclude s s.issueNext

/-- CONCEALED_TAIL_PRESENT (R170). None is presented outside CONFIGURED (R190). -/
def execConcealedTailPresent (s : State) : Host.Outcome State Fault Refusal :=
  conclude s
    (if s.configured then
      match s.nextTail with
      | some (w, p) => s.presentTail w p
      | none => s
    else s)

/-- TOKEN_REFILL (R141, R142). -/
def execTokenRefill (s : State) : Host.Outcome State Fault Refusal := conclude s s.refill

/-- HOLD_EXPIRED (R74). -/
def execHoldExpired (s : State) : Host.Outcome State Fault Refusal := conclude s s.expireHolds

/-- GATHER_DEADLINE (R119). -/
def execGatherDeadline (group : Fin 32) (s : State) : Host.Outcome State Fault Refusal :=
  conclude s (s.gatherExpired group.val)

/-- REREAD_DEADLINE (R128). -/
def execRereadDeadline (group : Fin 32) (s : State) : Host.Outcome State Fault Refusal :=
  conclude s (s.rereadExpired group.val)

/-- SEARCH_STEP (R35). -/
def execSearchStep (s : State) : Host.Outcome State Fault Refusal := conclude s s.searchStep

/-- WARM_CLEAR_ABANDON (R198, steps 4 to 7). -/
def execWarmClearAbandon (s : State) : Host.Outcome State Fault Refusal := conclude s s.clearAbandon

/-- FAULT_ENTRY_ABANDON (R199, steps 3 and 4). -/
def execFaultEntryAbandon (s : State) : Host.Outcome State Fault Refusal := conclude s s.faultAbandon

end Sys2Proof.Machine
end

