-- ==== Sys2Proof/Machine/Recorder.lean ====
section
/-! DEFINITION. The recorder's requests and their answers: RECORDER_READ, RECORDER_WRITE, PASS_ANSWER and
SOURCE_READ_ANSWER (R41 to R60). -/
namespace Sys2Proof.Machine

/-- RECORDER_READ: a read is presented and, unless the port pauses, taken whole (R41, R44, R45, R47, R52). -/
def execRecorderRead (addr : Addr) (length tag : Fin 32) (s : State) : Host.Outcome State Fault Refusal :=
  conclude s (s.presentRequest
    { kind := .read, addr := alignBeat addr, length := length.val, tag := tag.val, beats := [] })

/-- RECORDER_WRITE: a write is presented and, unless the port pauses, taken whole (R41, R44, R45, R47,
R53). -/
def execRecorderWrite (addr : Addr) (tag : Fin 32) (beats : List WriteBeat) (s : State) :
    Host.Outcome State Fault Refusal :=
  conclude s (s.presentRequest
    { kind := .write, addr := alignBeat addr, length := beats.length, tag := tag.val, beats := beats })

/-- PASS_ANSWER: the memory's answer decides the recorder's response, and an OKAY write hands its triggers
over (R48, R49). -/
def execPassAnswer (tag : Fin 32) (status : MemStatus) (beats : List Beat) (s : State) :
    Host.Outcome State Fault Refusal :=
  s.answered tag (fun
    | .pass t => some (fun s => s.passAnswered t status beats)
    | _ => none)

/-- SOURCE_READ_ANSWER: the source data serves the redirected read (R58). -/
def execSourceReadAnswer (tag : Fin 32) (status : MemStatus) (beats : List Beat) (s : State) :
    Host.Outcome State Fault Refusal :=
  s.answered tag (fun
    | .sourceRead t => some (fun s => s.sourceAnswered t status beats)
    | _ => none)

end Sys2Proof.Machine
end

