-- ==== Sys2Proof/Machine/Reset.lean ====
section
/-! DEFINITION. COLD_RESET and RESET_RELEASE (R194, R45, R46). -/
namespace Sys2Proof.Machine

/-- The part while RST_N is low: every block at its cold-reset values, nothing answered, IRQ_N inactive
(R40, R46, R77, R78, R115, R136, R161, R178, R191, R194). The records of what has left the ports stay
(log 6); what the recorder had presented is gone with the recorder's own reset (log 2). -/
def State.coldReset (s : State) : State :=
  { State.reset with
    pins := { resetLow := true, caSel := s.pins.caSel, irqLow := false }
    port := { State.reset.port with sent := s.port.sent }
    memPort := { State.reset.memPort with issued := s.memPort.issued }
    drawn := s.drawn
    upsets := s.upsets
    pending := s.pending }

/-- COLD_RESET (R194). -/
def execColdReset (s : State) : Host.Outcome State Fault Refusal := conclude s s.coldReset

/-- RESET_RELEASE: the straps are sampled and the part starts in BLANK (R192, R194). It has no effect
while RST_N is not low (log 4). -/
def execResetRelease (caSel : BitVec 4) (s : State) : Host.Outcome State Fault Refusal :=
  conclude s
    (if s.pins.resetLow then { s with pins := { s.pins with resetLow := false, caSel := caSel } } else s)

end Sys2Proof.Machine
end

