-- ==== Sys2Proof/Machine/Triggers.lean ====
section
/-! DEFINITION. The trigger words handed over: START, STOP, ABORT, RESUME, UNKNOWN_COMMAND, LOAD, WARM_CLEAR,
TAKEN_INDEX_WRITE and the two class clears (R192). -/
namespace Sys2Proof.Machine

/-- A trigger word is handed over on its own; while RST_N is low none is (R194; log 7). -/
def State.handTrigger (s : State) (t : Trigger) : Host.Outcome State Fault Refusal :=
  conclude s (if s.pins.resetLow then s else s.takeTrigger t)

/-- START (R80, R81, R83). -/
def execStart (c : Fin 8) (s : State) : Host.Outcome State Fault Refusal :=
  s.handTrigger { word := .command c, value := 1 }

/-- STOP (R80, R81, R86). -/
def execStop (c : Fin 8) (s : State) : Host.Outcome State Fault Refusal :=
  s.handTrigger { word := .command c, value := 2 }

/-- ABORT (R80, R81, R87). -/
def execAbort (c : Fin 8) (s : State) : Host.Outcome State Fault Refusal :=
  s.handTrigger { word := .command c, value := 3 }

/-- RESUME (R80, R81, R85). -/
def execResume (c : Fin 8) (s : State) : Host.Outcome State Fault Refusal :=
  s.handTrigger { word := .command c, value := 4 }

/-- UNKNOWN_COMMAND: a command value that is not 1 to 4 (R80). A value of 1 to 4 is another row's event
(log 4). -/
def execUnknownCommand (c : Fin 8) (value : Word32) (s : State) : Host.Outcome State Fault Refusal :=
  match ChannelCommand.ofValue value with
  | none => s.handTrigger { word := .command c, value := value }
  | some _ => conclude s s

/-- LOAD (R195). -/
def execLoad (s : State) : Host.Outcome State Fault Refusal := s.handTrigger { word := .load, value := 1 }

/-- WARM_CLEAR (R198). -/
def execWarmClear (s : State) : Host.Outcome State Fault Refusal := s.handTrigger { word := .clear, value := 1 }

/-- TAKEN_INDEX_WRITE (R201). -/
def execTakenIndexWrite (value : Word32) (s : State) : Host.Outcome State Fault Refusal :=
  s.handTrigger { word := .taken, value := value }

/-- CONTAINED_CLASS_CLEAR (R204). -/
def execContainedClassClear (s : State) : Host.Outcome State Fault Refusal :=
  s.handTrigger { word := .containedClear, value := 1 }

/-- UNCONTAINED_CLASS_CLEAR (R204). -/
def execUncontainedClassClear (s : State) : Host.Outcome State Fault Refusal :=
  s.handTrigger { word := .uncontainedClear, value := 1 }

end Sys2Proof.Machine
end

