-- ==== Sys2Proof/Machine/Dispatch.lean ====
section
/-! DEFINITION. The meaning of every command: one arm each, one direct call. -/
namespace Sys2Proof.Machine

/-- The effect of a command on everything but the queue. -/
def exec (i : Instr) (s : State) : Host.Outcome State Fault Refusal :=
  match i with
  | .coldReset => Sys2Proof.Machine.execColdReset s
  | .resetRelease caSel => Sys2Proof.Machine.execResetRelease caSel s
  | .recorderRead addr length tag => Sys2Proof.Machine.execRecorderRead addr length tag s
  | .recorderWrite addr tag beats => Sys2Proof.Machine.execRecorderWrite addr tag beats s
  | .start channel => Sys2Proof.Machine.execStart channel s
  | .stop channel => Sys2Proof.Machine.execStop channel s
  | .abort channel => Sys2Proof.Machine.execAbort channel s
  | .resume channel => Sys2Proof.Machine.execResume channel s
  | .unknownCommand channel value => Sys2Proof.Machine.execUnknownCommand channel value s
  | .load => Sys2Proof.Machine.execLoad s
  | .warmClear => Sys2Proof.Machine.execWarmClear s
  | .takenIndexWrite value => Sys2Proof.Machine.execTakenIndexWrite value s
  | .containedClassClear => Sys2Proof.Machine.execContainedClassClear s
  | .uncontainedClassClear => Sys2Proof.Machine.execUncontainedClassClear s
  | .issue => Sys2Proof.Machine.execIssue s
  | .passAnswer tag status beats => Sys2Proof.Machine.execPassAnswer tag status beats s
  | .sourceReadAnswer tag status beats => Sys2Proof.Machine.execSourceReadAnswer tag status beats s
  | .unknownTagResponse tag status beats => Sys2Proof.Machine.execUnknownTagResponse tag status beats s
  | .channelWordReadAnswer tag status beats => Sys2Proof.Machine.execChannelWordReadAnswer tag status beats s
  | .planFetchAnswer tag status beats => Sys2Proof.Machine.execPlanFetchAnswer tag status beats s
  | .rejectedStatusWriteAnswer tag status => Sys2Proof.Machine.execRejectedStatusWriteAnswer tag status s
  | .statusWriteAnswer tag status => Sys2Proof.Machine.execStatusWriteAnswer tag status s
  | .headerReadAnswer tag status beats => Sys2Proof.Machine.execHeaderReadAnswer tag status beats s
  | .reportWriteAnswer tag status => Sys2Proof.Machine.execReportWriteAnswer tag status s
  | .mirrorWriteAnswer tag status => Sys2Proof.Machine.execMirrorWriteAnswer tag status s
  | .faultPageWriteAnswer tag status => Sys2Proof.Machine.execFaultPageWriteAnswer tag status s
  | .concealedTailWriteAnswer tag status => Sys2Proof.Machine.execConcealedTailWriteAnswer tag status s
  | .engineReadAnswer tag status beats => Sys2Proof.Machine.execEngineReadAnswer tag status beats s
  | .engineWriteAnswer tag status => Sys2Proof.Machine.execEngineWriteAnswer tag status s
  | .engineTailWriteAnswer tag status => Sys2Proof.Machine.execEngineTailWriteAnswer tag status s
  | .engineRequestIssue => Sys2Proof.Machine.execEngineRequestIssue s
  | .concealedTailPresent => Sys2Proof.Machine.execConcealedTailPresent s
  | .tokenRefill => Sys2Proof.Machine.execTokenRefill s
  | .holdExpired => Sys2Proof.Machine.execHoldExpired s
  | .gatherDeadline group => Sys2Proof.Machine.execGatherDeadline group s
  | .rereadDeadline group => Sys2Proof.Machine.execRereadDeadline group s
  | .searchStep => Sys2Proof.Machine.execSearchStep s
  | .warmClearAbandon => Sys2Proof.Machine.execWarmClearAbandon s
  | .faultEntryAbandon => Sys2Proof.Machine.execFaultEntryAbandon s

end Sys2Proof.Machine
end

