-- ==== Sys2Proof/Machine/Idle.lean ====
section
/-! DEFINITION. An idle step, with no command waiting (log 3). -/
namespace Sys2Proof.Machine

/-- The timed event that is due next, if any: a refill, then an expiry of holds, then the gather and
reread deadlines by ascending group (log 3). -/
def State.dueEvent (s : State) : Option (State → State) :=
  if s.engine.nextRefill.any (fun t => decide (t ≤ s.time)) then some State.refill
  else if s.holds.any (fun h => decide (h.deadline ≤ s.time)) then some State.expireHolds
  else if s.configured then
    match s.groups.entries.find? (fun e => e.2.state == .gathering && s.reached e.2.gatherDeadline) with
    | some (g, _) => some (fun s => s.gatherExpired g)
    | none =>
      match s.groups.entries.find? (fun e =>
          e.2.state == .awaitingReread && s.reached e.2.rereadDeadline) with
      | some (g, _) => some (fun s => s.rereadExpired g)
      | none => none
  else none

/-- An idle step, with no command waiting: an upset strikes; or the port takes what the recorder has
presented; or a timed event that is due is taken; or the timebase advances (log 3). -/
def State.idle (s : State) : Host.Outcome State Fault Refusal :=
  match s.upsets with
  | u :: rest => conclude s (State.strike { s with upsets := rest } u)
  | [] =>
    if s.accepting && !s.port.presented.isEmpty then conclude s (s.push [.accept])
    else
      match s.dueEvent with
      | some f => conclude s (f s)
      | none => conclude s { s with time := s.time + 1 }

end Sys2Proof.Machine
end

