-- ==== Sys2Proof/Safety.lean ====
section
/-! DEFINITION. What every step keeps: the tables' canonical form, the capacities of the queues and tables, the token
ceiling, the shape of the Fault Log, the level of IRQ_N, and no task left over. And the words in which statements say
what a command leaves alone. -/
namespace Sys2Proof.Machine

/-- The token ceiling in force; 0 while no configuration is held (R142). -/
def State.tokenCeiling (s : State) : Nat := (s.control.config.map Configuration.tokenCeiling).getD 0

/-- A class's next set is non-empty only while its first record is valid (R203). -/
def FaultLog.sound (l : FaultLog) : Prop := l.first = none → l.next = []

/-- What each task and each command keeps. -/
structure State.Kept (s : State) : Prop where
  /-- The accepted-request table is canonical (R42). -/
  accepted : Table.wf s.port.accepted = true
  /-- The frame entries are canonical (R16). -/
  frames : Table.wf s.map.entries = true
  /-- The Group Table is canonical (R90). -/
  groups : Table.wf s.groups.entries = true
  /-- The downstream tag table is canonical, and every tag is one of the 32 (R180). -/
  tags : Table.wf s.memPort.tags = true ∧ ∀ e ∈ s.memPort.tags, e.1 < Config.tagCount
  /-- At most 16 requests are held (R62). -/
  holds : s.holds.length ≤ Config.holdCapacity
  /-- At most 64 concealments (R163, R168). -/
  conceal : s.conceal.table.length ≤ Config.concealCapacity
  /-- At most 8 engine requests in flight (R144). -/
  inFlight : s.engine.inFlight.length ≤ Config.engineInFlight
  /-- The token counter never exceeds the ceiling (R142). -/
  tokens : s.engine.tokens ≤ s.tokenCeiling
  /-- R203. -/
  contained : s.control.contained.sound
  /-- R203. -/
  uncontained : s.control.uncontained.sound

/-- What holds between steps: what is kept, IRQ_N at the level R206 gives, and no task left over. -/
structure State.Sound (s : State) : Prop where
  kept : s.Kept
  irq : s.pins.irqLow = s.interrupt
  done : s.agenda = []

/-! ## The words of the statements -/

/-- What every command but the two of RST_N leaves as it was, and what every command ends with: the straps, the
timebase, the upsets and the queue stand; IRQ_N has its level (R206); no work is left. -/
structure State.Settled (s t : State) : Prop where
  resetLow : t.pins.resetLow = s.pins.resetLow
  caSel : t.pins.caSel = s.pins.caSel
  irq : t.pins.irqLow = t.interrupt
  time : t.time = s.time
  upsets : t.upsets = s.upsets
  pending : t.pending = s.pending
  done : t.agenda = []

/-- The blocks that hold recorder requests and frames stand as they were. -/
structure State.SameFrames (s t : State) : Prop where
  map : t.map = s.map
  groups : t.groups = s.groups
  holds : t.holds = s.holds
  conceal : t.conceal = s.conceal

/-- The memory port stands as it was, but for its SERVICE list (the mirror and fault page writes that changes of
their fields hand over, R204, R205). -/
def State.SamePort (s t : State) : Prop :=
  { t.memPort with serviceList := [] } = { s.memPort with serviceList := [] }

/-- The Control and Report Unit stands as it was, but for what a contained fault and its reports change. -/
def Control.butLog (c : Control) : Control :=
  { c with posts := [], reportOut := false, overflow := false, contained := { first := none, next := [] } }

/-- A contained fault has been taken (R203): it fills an invalid first record; else its kind is in the next set
and the record stands. -/
def FaultLog.took (before after : FaultLog) (r : FaultRecord) : Prop :=
  match before.first with
  | none => after.first = some r
  | some f => after.first = some f ∧ r.kind ∈ after.next

/-- The request a command presents at the recorder port (R41). -/
def requestOf : Instr → Option PortRequest
  | .recorderRead a n t =>
    some { kind := .read, addr := alignBeat a, length := n.val, tag := t.val, beats := [] }
  | .recorderWrite a t bs =>
    some { kind := .write, addr := alignBeat a, length := bs.length, tag := t.val, beats := bs }
  | _ => none

/-- The channel command that START, STOP, ABORT and RESUME stand for (R79). -/
def commandOf : Instr → Option (Fin 8 × ChannelCommand)
  | .start c => some (c, .start)
  | .stop c => some (c, .stop)
  | .abort c => some (c, .abort)
  | .resume c => some (c, .resume)
  | _ => none

/-- An arena request that meets neither a failing entry, nor quarantine, nor a held request of its page (R51,
tests 1 to 3): the request, the configuration and the place it resolves to. -/
structure State.ArenaRequest (s : State) (r : PortRequest) (c : Configuration) (p : Place) : Prop where
  idle : s.agenda = []
  accepting : s.accepting = true
  first : s.port.presented = []
  wellFormed : s.malformed r = false
  configured : s.control.part = .configured
  config : s.control.config = some c
  inArena : c.inArena r.addr = true
  place : c.resolve r.addr = p
  noTrigger : triggerList s.controlBase r.addr r.beats = []
  entryOk : (s.frame p.slot).parityOk = true
  notQuarantined : (s.frame p.slot).state ≠ .quarantined
  pageFree : ∀ h ∈ s.holds, h.slot = p.slot → h.page ≠ p.page

/-- The case under which the group rules hold an arena request, by the state of its slot, the state of the group that
owns it, the member's kind and the damaged positions it touches by payload or by tail (R52, R53, R64). -/
def State.HeldUnder (s : State) (r : PortRequest) (c : Configuration) (p : Place) (grp : Group) (case : HoldCase) :
    Prop :=
  let e := s.frame p.slot
  let restoring := e.state = .arriving ∧ (grp.state = .auditing ∨ grp.state = .reconstructing ∨
    grp.state = .concealing ∨ grp.state = .abandoning)
  let damaged := ∃ q, (p.byPayload = some q ∨ q ∈ c.byTail p r.length) ∧ s.damagedAt p.slot q = true
  (case = .sealWrite ∧ r.kind = .write ∧ e.state = .filling ∧ (grp.state = .sealing ∨ grp.state = .abandoning)) ∨
    (case = .repairWrite ∧ r.kind = .write ∧ restoring) ∨
    (case = .sealParityRead ∧ r.kind = .read ∧ e.state = .filling ∧ grp.state = .sealing ∧ e.kind ≠ some .data) ∨
    (case = .repairRead ∧ r.kind = .read ∧ restoring ∧ damaged)

/-- A report may join the post list: a configuration is held, the part is CONFIGURED or FAULTED, and the ring has
room by the test of R200. -/
def State.RingRoom (s : State) : Prop :=
  (s.control.part = .configured ∨ s.control.part = .faulted) ∧
    ∃ c, s.control.config = some c ∧
      (s.control.writeIndex + s.control.posts.length + c.ringSize - s.control.taken) % c.ringSize ≠
        c.ringSize - 1

/-- A number of reports, posted one after another, may all join the post list (R200). -/
def State.RingRoomFor (s : State) (n : Nat) : Prop :=
  (s.control.part = .configured ∨ s.control.part = .faulted) ∧
    ∃ c, s.control.config = some c ∧ ∀ k, k < n →
      (s.control.writeIndex + (s.control.posts.length + k) + c.ringSize - s.control.taken) % c.ringSize ≠
        c.ringSize - 1

/-- The answer an accepted request gets when it is turned away: a read POISON with one all-zero beat per beat, a
write REFUSED (R43, R76). -/
def State.refusal (s : State) (tag : Nat) : Option Response :=
  (s.accepted tag).map (fun a =>
    { tag := tag
      status := match a.kind with
        | .read => .poison
        | .write => .refused
      beats := match a.kind with
        | .read => List.replicate a.length 0
        | .write => [] })

/-- Every held request has been answered in queue order, and nothing else at the recorder port has changed (R76). A
tag stands in the queue once (R62); should one stand twice, it is answered once. -/
structure State.AnswersHolds (s t : State) : Prop where
  empty : t.holds = []
  sent : t.port.sent = s.port.sent ++ (s.holds.map (·.tag)).eraseDups.filterMap s.refusal
  gone : ∀ h ∈ s.holds, t.accepted h.tag = none
  others : ∀ k, (∀ h ∈ s.holds, h.tag ≠ k) → t.accepted k = s.accepted k
  presented : t.port.presented = s.port.presented

/-- A target loses its concealment when the slots given are claimed, marked stale or settled by a search: it is none
of them, and an entry of it names one of them as source (R174). -/
def State.WithdrawnBy (s : State) (slots : List Nat) (target : Nat) : Prop :=
  target ∉ slots ∧ ∃ e ∈ s.conceal.table, e.target = target ∧ ∃ k ∈ slots, e.source = .slot k

/-- The step of a running search that is its last, and the search with what that step notes (R35): the step for the
highest occupied entry, or a step that finds no entry left (log 19). -/
def State.LastSearchStep (s : State) (q last : Search) : Prop :=
  (last = q ∧ ∀ e ∈ s.groups.entries, e.1 < q.next) ∨
    ∃ g grp, (g, grp) ∈ s.groups.entries ∧ q.next ≤ g ∧ grp.checkOk = true ∧
      (∀ e ∈ s.groups.entries, q.next ≤ e.1 → e = (g, grp)) ∧ last = q.note g grp

/-- What the end of a search with an outcome meets: no work between steps, the part CONFIGURED, no failing entry
among the concealments and the targets it reads, and no CONCEALED tails to be written. -/
structure State.SearchEnds (s : State) (q last : Search) : Prop where
  idle : s.agenda = []
  configured : s.control.part = .configured
  running : s.map.search = some q
  last : s.LastSearchStep q last
  concealOk : ∀ e ∈ s.conceal.table, e.checkOk = true
  targetsOk : ∀ k, s.WithdrawnBy [q.slot] k → (s.frame k).parityOk = true
  noTails : s.conceal.work = []

end Sys2Proof.Machine
end

