-- ==== Sys2Proof/Certificates/Slice0/Obligations.lean ====
section
/-! DEFINITION. The statements for the provers. Wherever one names no value for a field, it says nothing of it. "Idle"
hypotheses of the form `s.agenda = []` hold between steps (`StepKeepsSound`). -/
open Sys2Proof Sys2Proof.Machine

/-! ## The block as a whole -/

/-- The state after reset has what every step keeps. -/
def Obligations.ResetIsSound : Prop :=
  State.reset.Sound

/-- Every step keeps what `State.Sound` says: tables canonical, at most 16 holds (R62), 64 concealments (R163), 8
engine requests in flight (R144), tags below 32 (R180), tokens within the ceiling (R142), a next set non-empty only
beside a valid record (R203), IRQ_N at its level (R206), no work left over. -/
def Obligations.StepKeepsSound : Prop :=
  ∀ s t : State, s.Sound → step s = .next t → t.Sound

/-- A step with a command waiting runs exactly that command on the state with the queue's rest. -/
def Obligations.StepRunsFrontCommand : Prop :=
  ∀ (c : Instr) (rest : List Instr) (s : State),
    step { s with pending := c :: rest } = exec c { s with pending := rest }

/-- No command is refused, and the only stop is a plan fetch answer that finds all 32 Group Table entries occupied,
which R90 says never happens (log 14). -/
def Obligations.OnlyAFullGroupTableStops : Prop :=
  ∀ (c : Instr) (s : State), (∀ r, exec c s ≠ .refused r) ∧
    ∀ f, exec c s = .fault f →
      (∃ tag status beats, c = .planFetchAnswer tag status beats) ∧
      ∀ k, k < Config.groupCount → (s.group k).isSome = true

/-! ## Reset (R194) -/

/-- COLD_RESET completes in every state: every block at its cold-reset values, no answer given, IRQ_N inactive; the
records of what has left the ports, the straps as sampled, the upsets and the queue stand (logs 2, 6 and 9); that a
request presented and not yet taken is dropped with the rest, where R45 has a request presented during a pause taken
after it, is the model's choice (log 2), and that the timebase and the model's own counters start again at 0 is its
choice too (logs 3, 12 and 13). RESET_RELEASE, whenever RST_N is low, samples CA_SEL and ends the reset, and nothing
else changes but IRQ_N's level; after a COLD_RESET the part stands in BLANK with the Control and Report Unit at the
values of R194. -/
def Obligations.ResetAndRelease : Prop :=
  (∀ s : State, ∃ t, exec .coldReset s = .next t ∧
     t.pins = { resetLow := true, caSel := s.pins.caSel, irqLow := false } ∧
     t.port = { accepted := [], presented := [], nextSeq := 0, sent := s.port.sent } ∧
     t.map = { entries := [], pendingSearch := [], search := none } ∧
     t.groups = { entries := [], nextSerial := 0 } ∧ t.holds = [] ∧
     t.engine = State.reset.engine ∧ t.conceal = { table := [], work := [] } ∧
     (∀ c : Fin 8, t.channel c = Channel.reset) ∧
     t.memPort = { passList := [], serviceList := [], engineList := [], tags := [], lastServed := .engine,
                   issued := s.memPort.issued } ∧
     t.control = State.reset.control ∧ t.time = 0 ∧ t.drawn = s.drawn ∧ t.upsets = s.upsets ∧
     t.agenda = [] ∧ t.pending = s.pending ∧
     t.control.part = .blank ∧ t.control.config = none ∧ t.mode = .strict ∧ t.control.loadPending = none ∧
     t.control.writing = false ∧ t.control.loadResult = .none ∧ t.control.writeIndex = 0 ∧
     t.control.taken = 0 ∧ t.control.posts = [] ∧ t.control.overflow = false ∧
     t.control.takenRefused = false ∧ t.control.contained = { first := none, next := [] } ∧
     t.control.uncontained = { first := none, next := [] } ∧
     ∀ caSel : BitVec 4, exec (.resetRelease caSel) t =
       .next { t with pins := { resetLow := false, caSel := caSel, irqLow := false } }) ∧
  (∀ (s : State) (caSel : BitVec 4), s.agenda = [] → s.pins.resetLow = true →
     exec (.resetRelease caSel) s =
       .next (State.driveInterrupt { s with pins := { s.pins with resetLow := false, caSel := caSel } }))

/-! ## The recorder's requests (R41 to R60) -/

/-- A well-formed request outside the arena, or in a part state other than CONFIGURED, is taken, entered in the
accepted-request table with its trigger list and presented as PASS; nothing else changes (R42, R47 to R49). While the
port pauses (RST_N low, CLEARING, fault entry), a request stays presented and nothing else changes (R45). A malformed
request (length 0 or above 16, a burst across a 4096-byte boundary, or a tag in use) is answered at once, a read
POISON with no beats and a write REFUSED; it is not accepted or classified, an earlier request of its tag stands, and
MALFORMED is raised with address and tag (R44). A request is malformed, and the port accepts requests, exactly as
these words say. -/
def Obligations.UnexaminedRequestsPassWaitOrAreMalformed : Prop :=
  (∀ (s : State) (i : Instr) (r : PortRequest), requestOf i = some r → s.agenda = [] →
     s.accepting = true → s.port.presented = [] → s.malformed r = false →
     (s.control.part = .configured → ∀ c, s.control.config = some c → c.inArena r.addr = false) →
     exec i s = .next (State.driveInterrupt { s with
       port := { s.port with
         accepted := Table.put r.tag
           { kind := r.kind, addr := r.addr, length := r.length, beats := r.beats,
             disposition := .waitingIssue
             triggers := if r.kind = .read then [] else triggerList s.controlBase r.addr r.beats
             redirect := none, fence := none, seq := s.port.nextSeq } s.port.accepted
         nextSeq := s.port.nextSeq + 1 }
       memPort := { s.memPort with passList := s.memPort.passList ++
         [{ ref := .pass r.tag, kind := r.kind, addr := r.addr, length := r.length, beats := r.beats }] } })) ∧
  (∀ (s : State) (i : Instr) (r : PortRequest), requestOf i = some r → s.agenda = [] →
     s.accepting = false →
     exec i s = .next (State.driveInterrupt { s with
       port := { s.port with presented := s.port.presented ++ [r] } })) ∧
  (∀ (s : State) (i : Instr) (r : PortRequest), requestOf i = some r → s.agenda = [] →
     s.accepting = true → s.port.presented = [] →
     (r.length = 0 ∨ 17 ≤ r.length ∨ r.addr / 4096 ≠ (r.addr + (r.length - 1) * 32) / 4096 ∨
       (s.accepted r.tag).isSome = true) →
     ∃ t, exec i s = .next t ∧ s.Settled t ∧ s.SameFrames t ∧ s.SamePort t ∧
       t.port = { s.port with sent := s.port.sent ++
         [{ tag := r.tag, status := if r.kind = .read then .poison else .refused, beats := [] }] } ∧
       t.engine = s.engine ∧ t.channels = s.channels ∧ t.control.butLog = s.control.butLog ∧
       s.control.contained.took t.control.contained
         { kind := .malformed, channel := none, groupNumber := none, slot := none, sector := none,
           detail := some (.malformed r.addr r.tag) }) ∧
  (∀ (s : State) (r : PortRequest), (s.malformed r = true ↔ r.length = 0 ∨ 17 ≤ r.length ∨
      r.addr / 4096 ≠ (r.addr + (r.length - 1) * 32) / 4096 ∨ (s.accepted r.tag).isSome = true) ∧
      (s.accepting = true ↔ s.pins.resetLow = false ∧ s.control.part ≠ .clearing ∧ s.control.entering = false))

/-- A read touching by payload a damaged position of a LOST frame, or of an ARRIVING frame whose group is GATHERING
or AWAITING_REREAD, is answered POISON at once with one all-zero beat per beat; nothing goes downstream, no fault is
raised and no report posted (R52, R55). A read of positions that are not damaged passes, whatever the frame's state,
unless it reads a parity member of a group in SEALING: it is accepted and presented as PASS, and nothing else changes
(R52). A read of the tail page passes likewise whatever damaged tails it touches, while the frame is LOST or
CONCEALED, or ARRIVING in a group that is GATHERING or AWAITING_REREAD: the tails are what the recorder wrote (R50,
R52, R55). -/
def Obligations.ArenaReadPassesOrIsPoisoned : Prop :=
  (∀ (s : State) (a : Addr) (n tag : Fin 32) (r : PortRequest) (c : Configuration) (p : Place) (q : Nat),
     requestOf (.recorderRead a n tag) = some r → s.ArenaRequest r c p →
     p.page = .payload q → (s.frame p.slot).extent.holds q = true →
     ((s.frame p.slot).state = .lost ∨
       ((s.frame p.slot).state = .arriving ∧ ∃ g grp, s.ownerGroup p.slot = some (g, grp) ∧
         (grp.state = .gathering ∨ grp.state = .awaitingReread))) →
     ∃ t, exec (.recorderRead a n tag) s = .next t ∧ s.Settled t ∧ s.SameFrames t ∧
       t.port.sent = s.port.sent ++ [{ tag := tag.val, status := .poison,
                                       beats := List.replicate n.val 0 }] ∧
       t.accepted tag.val = none ∧ (∀ k, k ≠ tag.val → t.accepted k = s.accepted k) ∧
       t.engine = s.engine ∧ t.channels = s.channels ∧ t.memPort = s.memPort ∧ t.control = s.control) ∧
  (∀ (s : State) (a : Addr) (n tag : Fin 32) (r : PortRequest) (c : Configuration) (p : Place),
     requestOf (.recorderRead a n tag) = some r → s.ArenaRequest r c p →
     (∀ q, p.page = .payload q → (s.frame p.slot).extent.holds q = false) →
     (∀ q ∈ c.byTail p n.val, (s.frame p.slot).extent.holds q = false) →
     ¬ ((s.frame p.slot).state = .filling ∧ (s.frame p.slot).kind ≠ some .data ∧
         ∃ g grp, s.ownerGroup p.slot = some (g, grp) ∧ grp.state = .sealing) →
     exec (.recorderRead a n tag) s = .next (State.driveInterrupt { s with
       port := { s.port with
         accepted := Table.put tag.val (s.acceptedEntry r) s.port.accepted
         nextSeq := s.port.nextSeq + 1 }
       memPort := { s.memPort with passList := s.memPort.passList ++
         [{ ref := .pass tag.val, kind := .read, addr := r.addr, length := n.val, beats := [] }] } })) ∧
  (∀ (s : State) (a : Addr) (n tag : Fin 32) (r : PortRequest) (c : Configuration) (p : Place),
     requestOf (.recorderRead a n tag) = some r → s.ArenaRequest r c p → p.page = .tail →
     ((s.frame p.slot).state = .lost ∨ (s.frame p.slot).state = .concealed ∨
       ((s.frame p.slot).state = .arriving ∧ ∃ g grp, s.ownerGroup p.slot = some (g, grp) ∧
         (grp.state = .gathering ∨ grp.state = .awaitingReread))) →
     exec (.recorderRead a n tag) s = .next (State.driveInterrupt { s with
       port := { s.port with
         accepted := Table.put tag.val (s.acceptedEntry r) s.port.accepted
         nextSeq := s.port.nextSeq + 1 }
       memPort := { s.memPort with passList := s.memPort.passList ++
         [{ ref := .pass tag.val, kind := .read, addr := r.addr, length := n.val, beats := [] }] } }))

/-- A read of a concealed position is served from the entry of its slot that holds it: from a slot by a PASS read of
the same page and offset of the source, or at once with the fill pattern in every beat (R58, R172). That the entries
are looked up in the order in which they were created, so that the first one that holds the position serves and the
check bits of those behind it are not tested, is the model's choice (log 17, DEDUCED, unsafe). -/
def Obligations.ConcealedReadIsRedirected : Prop :=
  ∀ (s : State) (a : Addr) (n tag : Fin 32) (r : PortRequest) (c : Configuration) (p : Place) (q : Nat)
    (e : ConcealEntry) (before after : List ConcealEntry),
    requestOf (.recorderRead a n tag) = some r → s.ArenaRequest r c p →
    (s.frame p.slot).state = .concealed → p.page = .payload q →
    (s.frame p.slot).extent.holds q = true →
    s.conceal.entriesOf p.slot = before ++ e :: after →
    (∀ f ∈ before, f.checkOk = true ∧ f.range.holds q = false) →
    e.checkOk = true → e.range.holds q = true →
    ∃ t, exec (.recorderRead a n tag) s = .next t ∧ s.Settled t ∧ s.SameFrames t ∧
      t.engine = s.engine ∧ t.channels = s.channels ∧ t.control = s.control ∧
      (∀ k, e.source = .slot k →
        t.port = { s.port with
          accepted := Table.put tag.val { s.acceptedEntry r with
            disposition := .redirected
            redirect := some (.source (c.slotStart k + (r.addr - c.slotStart p.slot))) } s.port.accepted
          nextSeq := s.port.nextSeq + 1 } ∧
        t.memPort = { s.memPort with passList := s.memPort.passList ++
          [{ ref := .sourceRead tag.val, kind := .read
             addr := c.slotStart k + (r.addr - c.slotStart p.slot), length := n.val, beats := [] }] }) ∧
      (e.source = .fill →
        t.port.sent = s.port.sent ++ [{ tag := tag.val, status := .okay,
                                        beats := List.replicate n.val c.fillPattern }] ∧
        t.accepted tag.val = none ∧ t.memPort = s.memPort)

/-- The hold that the group rules give a request (R52, R53, R64): a write to a member of a SEALING or ABANDONING
RECORD group, a read of a parity member in SEALING, any write and any read of a damaged position of a RESTORE group
in AUDITING, RECONSTRUCTING, CONCEALING or ABANDONING. A request the group rules hold is taken onto the Hold Queue's
tail with its own deadline, its group is offered for promotion, and nothing goes to the memory (R62, R63, R65, R67).
A full Hold Queue refuses a request: a read POISON, a write REFUSED and not performed; HOLD_OVERFLOW is raised with
the slot, the tag and the kind, and no promotion is offered (R66). The case is that of the state of the slot's entry,
the state of the group that owns it, the member's kind, and the damaged positions the request touches by payload or
by tail; a position is damaged as the Frame Map answers, every one below N in a QUARANTINED slot (R21, R34, R50). -/
def Obligations.GroupRulesHoldOrRefuse : Prop :=
  (∀ (fs : FrameState) (gs : GroupState) (parity payload tail : Bool),
     let restoring := fs = .arriving ∧
       (gs = .auditing ∨ gs = .reconstructing ∨ gs = .concealing ∨ gs = .abandoning)
     (writeInterlock fs (some gs) = some .sealWrite ↔ fs = .filling ∧ (gs = .sealing ∨ gs = .abandoning)) ∧
     (writeInterlock fs (some gs) = some .repairWrite ↔ restoring) ∧
     (readInterlock fs (some gs) parity payload tail = some .sealParityRead ↔
       fs = .filling ∧ gs = .sealing ∧ parity = true) ∧
     (readInterlock fs (some gs) parity payload tail = some .repairRead ↔
       restoring ∧ (payload = true ∨ tail = true)) ∧
     writeInterlock fs none = none ∧ readInterlock fs none parity payload tail = none) ∧
  (∀ (s : State) (i : Instr) (r : PortRequest) (c : Configuration) (p : Place) (g : Nat) (grp : Group)
     (case : HoldCase),
     requestOf i = some r → s.ArenaRequest r c p → s.ownerGroup p.slot = some (g, grp) →
     s.HeldUnder r c p grp case → s.holds.length < 16 →
     ∃ t, exec i s = .next t ∧ s.Settled t ∧
       t.holds = s.holds ++ [{
         tag := r.tag, kind := r.kind, addr := r.addr, length := r.length, slot := p.slot, page := p.page
         byPayload := p.byPayload, byTail := c.byTail p r.length, case := case, waitsOn := .group g
         groupAtHold := some (grp.channel, grp.groupNumber)
         deadline := s.time + c.holdLimit }] ∧
       t.port = { s.port with
         accepted := Table.put r.tag { s.acceptedEntry r with disposition := .held } s.port.accepted
         nextSeq := s.port.nextSeq + 1 } ∧
       t.engine = { s.engine with queue := promoteJob g s.engine.queue } ∧
       t.map = s.map ∧ t.groups = s.groups ∧ t.conceal = s.conceal ∧ t.channels = s.channels ∧
       t.memPort = s.memPort ∧ t.control = s.control) ∧
  (∀ (s : State) (i : Instr) (r : PortRequest) (c : Configuration) (p : Place) (g : Nat) (grp : Group)
     (case : HoldCase),
     requestOf i = some r → s.ArenaRequest r c p → s.ownerGroup p.slot = some (g, grp) →
     s.HeldUnder r c p grp case → s.holds.length = 16 →
     ∃ t, exec i s = .next t ∧ s.Settled t ∧ s.SameFrames t ∧ s.SamePort t ∧
       t.port.sent = s.port.sent ++ [
         { tag := r.tag, status := if r.kind = .read then .poison else .refused
           beats := if r.kind = .read then List.replicate r.length 0 else [] }] ∧
       t.accepted r.tag = none ∧ (∀ k, k ≠ r.tag → t.accepted k = s.accepted k) ∧
       t.engine = s.engine ∧ t.channels = s.channels ∧ t.control.butLog = s.control.butLog ∧
       s.control.contained.took t.control.contained
         { kind := .holdOverflow, channel := none, groupNumber := none, slot := some p.slot, sector := none,
           detail := some (.request r.tag r.kind) }) ∧
  (∀ (s : State) (r : PortRequest) (c : Configuration) (p : Place),
      (∀ g grp case, s.ownerGroup p.slot = some (g, grp) →
        (s.interlock (s.acceptedEntry r) c p = some case ↔ s.HeldUnder r c p grp case)) ∧
      (s.ownerGroup p.slot = none → s.interlock (s.acceptedEntry r) c p = none)) ∧
  (∀ (s : State) (k : Nat),
      (∀ g grp, s.ownerGroup k = some (g, grp) ↔ (s.frame k).owner = some g ∧ s.group g = some grp) ∧
      (∀ q, s.damagedAt k q = true ↔
        ((s.frame k).state = .quarantined ∧ q < s.sectors) ∨ ((s.frame k).state ≠ .quarantined ∧
          ∃ r ∈ (s.frame k).extent, r.first ≤ q ∧ q < r.first + r.count)))

/-- A request to a QUARANTINED slot is held under QUARANTINE and waits on the slot; no arrival and no stale mark is
taken (R34, R51, R64). A frame entry found failing its check by a request becomes QUARANTINED: no fault is raised,
its slot joins the end of the pending-search list, a search starts for the head of that list if none is running,
every other entry stands, and the request is held in the same way (R19, R33). With 16 requests held a request to a
QUARANTINED slot, or to one whose entry is found failing its check, is refused: a read POISON with zero beats, a
write REFUSED, HOLD_OVERFLOW taken with the slot, the tag and the kind, and no entry joins the queue (R66). -/
def Obligations.QuarantinedSlotHolds : Prop :=
  (∀ (s : State) (i : Instr) (r : PortRequest) (c : Configuration),
     requestOf i = some r → s.agenda = [] → s.accepting = true → s.port.presented = [] →
     s.malformed r = false → s.control.part = .configured → s.control.config = some c →
     c.inArena r.addr = true → triggerList s.controlBase r.addr r.beats = [] →
     (s.frame (c.resolve r.addr).slot).state = .quarantined → s.holds.length < 16 →
     ∃ t h, exec i s = .next t ∧ s.Settled t ∧ t.holds = s.holds ++ [h] ∧
       h.tag = r.tag ∧ h.kind = r.kind ∧ h.case = .quarantine ∧
       h.waitsOn = .slot (c.resolve r.addr).slot ∧ h.groupAtHold = none ∧
       h.deadline = s.time + c.holdLimit ∧
       t.port = { s.port with
         accepted := Table.put r.tag { s.acceptedEntry r with disposition := .held } s.port.accepted
         nextSeq := s.port.nextSeq + 1 } ∧
       t.map = s.map ∧ t.groups = s.groups ∧ t.conceal = s.conceal ∧ t.engine = s.engine ∧
       t.channels = s.channels ∧ t.memPort = s.memPort ∧ t.control = s.control) ∧
  (∀ (s : State) (i : Instr) (r : PortRequest) (c : Configuration) (p : Place),
     requestOf i = some r → s.agenda = [] → s.accepting = true → s.port.presented = [] →
     s.malformed r = false → s.control.part = .configured → s.control.config = some c →
     c.inArena r.addr = true → c.resolve r.addr = p → triggerList s.controlBase r.addr r.beats = [] →
     ((s.frame p.slot).state = .quarantined ∨ (s.frame p.slot).parityOk = false) → s.holds.length = 16 →
     ∃ t, exec i s = .next t ∧ s.Settled t ∧ t.holds = s.holds ∧ s.SamePort t ∧
       t.port.sent = s.port.sent ++ [
         { tag := r.tag, status := if r.kind = .read then .poison else .refused
           beats := if r.kind = .read then List.replicate r.length 0 else [] }] ∧
       t.accepted r.tag = none ∧ (∀ k, k ≠ r.tag → t.accepted k = s.accepted k) ∧
       (t.frame p.slot).state = .quarantined ∧ (∀ k, k ≠ p.slot → t.frame k = s.frame k) ∧
       ((s.frame p.slot).state = .quarantined → t.map = s.map) ∧ t.groups = s.groups ∧
       t.conceal = s.conceal ∧ t.engine = s.engine ∧ t.channels = s.channels ∧
       t.control.butLog = s.control.butLog ∧
       s.control.contained.took t.control.contained
         { kind := .holdOverflow, channel := none, groupNumber := none, slot := some p.slot, sector := none,
           detail := some (.request r.tag r.kind) }) ∧
  (∀ (s : State) (i : Instr) (r : PortRequest) (c : Configuration) (p : Place),
     requestOf i = some r → s.agenda = [] → s.accepting = true → s.port.presented = [] →
     s.malformed r = false → s.control.part = .configured → s.control.config = some c →
     c.inArena r.addr = true → c.resolve r.addr = p → triggerList s.controlBase r.addr r.beats = [] →
     (s.frame p.slot).parityOk = false → (s.frame p.slot).state ≠ .quarantined → s.holds.length < 16 →
     ∃ t h, exec i s = .next t ∧ s.Settled t ∧
       t.frame p.slot = { s.frame p.slot with state := .quarantined, parityOk := true } ∧
       (∀ k, k ≠ p.slot → t.frame k = s.frame k) ∧
       t.map.pendingSearch =
         (if p.slot ∈ s.map.pendingSearch then s.map.pendingSearch else s.map.pendingSearch ++ [p.slot]) ∧
       (∀ q, s.map.search = some q → t.map.search = some q) ∧
       (s.map.search = none → ∃ k, t.map.pendingSearch.head? = some k ∧
         t.map.search = some { slot := k, next := 0, noted := [] }) ∧
       t.holds = s.holds ++ [h] ∧ h.tag = r.tag ∧ h.case = .quarantine ∧ h.waitsOn = .slot p.slot ∧
       h.groupAtHold = none ∧ h.deadline = s.time + c.holdLimit ∧
       t.port = { s.port with
         accepted := Table.put r.tag { s.acceptedEntry r with disposition := .held } s.port.accepted
         nextSeq := s.port.nextSeq + 1 } ∧
       t.groups = s.groups ∧ t.conceal = s.conceal ∧ t.engine = s.engine ∧ t.channels = s.channels ∧
       t.memPort = s.memPort ∧ t.control = s.control)

/-- A request to the payload page or the tail page of a held request accepted before it is held under SAME_PAGE,
whatever its slot's own state would do with it, and waits on the tag of the most recently held of them; it offers no
promotion, takes no arrival and makes no stale mark (R51 test 3, R60, R64, R65). With 16 requests held it is refused
instead: a read POISON with zero beats, a write REFUSED, and HOLD_OVERFLOW taken with the slot, the tag and the kind
(R66). Order of acceptance is the order of the model's acceptance numbers (log 12). -/
def Obligations.SamePageRequestIsHeld : Prop :=
  ∀ (s : State) (i : Instr) (r : PortRequest) (c : Configuration) (p : Place) (before after : List Held)
    (h : Held) (b : Accepted),
    requestOf i = some r → s.agenda = [] → s.accepting = true → s.port.presented = [] →
    s.malformed r = false → s.control.part = .configured → s.control.config = some c →
    c.inArena r.addr = true → c.resolve r.addr = p → triggerList s.controlBase r.addr r.beats = [] →
    (s.frame p.slot).parityOk = true → (s.frame p.slot).state ≠ .quarantined →
    s.holds = before ++ h :: after → h.slot = p.slot → h.page = p.page →
    s.accepted h.tag = some b → b.seq < s.port.nextSeq →
    (∀ f ∈ after, f.slot = p.slot → f.page ≠ p.page) →
    (s.holds.length = 16 → ∃ t, exec i s = .next t ∧ s.Settled t ∧ s.SameFrames t ∧ s.SamePort t ∧
      t.port.sent = s.port.sent ++ [
        { tag := r.tag, status := if r.kind = .read then .poison else .refused
          beats := if r.kind = .read then List.replicate r.length 0 else [] }] ∧
      t.accepted r.tag = none ∧ (∀ k, k ≠ r.tag → t.accepted k = s.accepted k) ∧
      t.engine = s.engine ∧ t.channels = s.channels ∧ t.control.butLog = s.control.butLog ∧
      s.control.contained.took t.control.contained
        { kind := .holdOverflow, channel := none, groupNumber := none, slot := some p.slot, sector := none,
          detail := some (.request r.tag r.kind) }) ∧
    (s.holds.length < 16 → ∃ t x, exec i s = .next t ∧ s.Settled t ∧ t.holds = s.holds ++ [x] ∧
      x.tag = r.tag ∧ x.kind = r.kind ∧ x.addr = r.addr ∧ x.length = r.length ∧ x.slot = p.slot ∧
      x.page = p.page ∧ x.case = .samePage ∧ x.waitsOn = .tag h.tag ∧
      x.groupAtHold = (s.ownerGroup p.slot).map (fun o => (o.2.channel, o.2.groupNumber)) ∧
      x.deadline = s.time + c.holdLimit ∧
      t.port = { s.port with
        accepted := Table.put r.tag { s.acceptedEntry r with disposition := .held } s.port.accepted
        nextSeq := s.port.nextSeq + 1 } ∧
      t.map = s.map ∧ t.groups = s.groups ∧ t.conceal = s.conceal ∧ t.engine = s.engine ∧
      t.channels = s.channels ∧ t.memPort = s.memPort ∧ t.control = s.control)

/-- A write with some byte enabled to a frame in a final state is a stale mark: STALE, extent empty, the other fields
kept; FRAME_STALE is posted; the frame's own Concealment Table entries go, and so do those of every target that named
it as source, a CONCEALED one of which becomes LOST with its other fields kept; the write passes (R32, R53, R173,
R174). Here no group has CONCEALED tails to write. -/
def Obligations.WriteToAFinalFrameMarksItStale : Prop :=
  ∀ (s : State) (a : Addr) (tag : Fin 32) (beats : List WriteBeat) (r : PortRequest) (c : Configuration)
    (p : Place),
    requestOf (.recorderWrite a tag beats) = some r → s.ArenaRequest r c p →
    (s.frame p.slot).state.vouched = true → (s.frame p.slot).owner = none → (∃ b ∈ beats, b.enables ≠ 0) →
    (∀ e ∈ s.conceal.table, e.checkOk = true) →
    (∀ k, s.WithdrawnBy [p.slot] k → (s.frame k).parityOk = true) → s.conceal.work = [] →
    ∃ t, exec (.recorderWrite a tag beats) s = .next t ∧ s.Settled t ∧
      t.frame p.slot = { s.frame p.slot with state := .stale, extent := [] } ∧
      (∀ k, s.WithdrawnBy [p.slot] k → (s.frame k).state = .concealed →
        t.frame k = { s.frame k with state := .lost }) ∧
      (∀ k, k ≠ p.slot → (s.WithdrawnBy [p.slot] k → (s.frame k).state ≠ .concealed) →
        t.frame k = s.frame k) ∧
      (∀ e, e ∈ t.conceal.table ↔
        e ∈ s.conceal.table ∧ e.target ≠ p.slot ∧ ¬ s.WithdrawnBy [p.slot] e.target) ∧
      (s.RingRoom → ∃ later, t.control.posts = s.control.posts ++
        .frameStale p.slot (s.frame p.slot).channel (s.frame p.slot).kind (s.frame p.slot).expected
          (s.frame p.slot).groupNumber (s.frame p.slot).worn :: later ∧
        (∀ x ∈ later, x.kind = .withdrawn) ∧ ((∀ k, ¬ s.WithdrawnBy [p.slot] k) → later = [])) ∧
      t.groups = s.groups ∧ t.holds = s.holds ∧ t.conceal.work = [] ∧ t.engine = s.engine ∧
      t.channels = s.channels ∧ t.control.part = .configured ∧
      t.accepted tag.val = some (s.acceptedEntry r) ∧
      (∀ k, k ≠ tag.val → t.accepted k = s.accepted k) ∧ t.port.sent = s.port.sent ∧
      t.memPort.passList = s.memPort.passList ++
        [{ ref := .pass tag.val, kind := .write, addr := r.addr, length := beats.length, beats := beats }]

/-- The arrival of one whole beat over a RESTORE member's tail (R8, R9, R11): a torn beat is UNREADABLE; a beat whose
sector index or frame number is not the one its place calls for is misplaced and UNREADABLE; the count is present
only with CORRECTED. An arrival a GATHERING group takes: the position has arrived, the count of ungathered positions
falls if it is new, the extent is edited by the verdict, and the misplaced count and the corrected-symbol total rise;
the one that leaves nothing ungathered cancels the gather deadline and makes the CHECK the next work of the step
(R27, R117, R118). One that a group in AWAITING_REREAD takes is taken for its verdict and its counts alike and leaves
the arrival sets; at a requested position it leaves the requested set and lowers the outstanding count; the one that
leaves no member anything outstanding cancels the reread deadline and makes the CHECK the next work of the step
(R127). What the closing CHECK then calls transient and persistent is a clause of
DeadlinesCloseTheGatheringAndTheRound (R125). The one-beat tail write whose arrival completes a gathering, with the
engine at work on another job, AUDIT set, P at least 1 and no position beyond parity: the group is AUDITING in the
same step, with its job queued, and the write is fenced as it is presented (R54, R61, R118, R124). -/
def Obligations.RestoreArrivalIsReadAndTaken : Prop :=
  (∀ (grp : Group) (slot place position : Nat) (b : WriteBeat), grp.role = .restore → b.enables ≠ 0 →
     ∃ a, beatArrival grp slot place position b = some a ∧
       a.slot = slot ∧ a.member = place ∧ a.position = position ∧
       (a.torn = true ↔ b.enables ≠ BitVec.allOnes 32) ∧
       (a.torn = true → a.verdict = some .unreadable ∧ a.misplaced = some false ∧ a.count = none) ∧
       (a.torn = false →
         (a.misplaced = some true ↔ Beat.field b.data 4 2 ≠ position ∨
           BitVec.ofNat 32 (Beat.field b.data 0 4) ≠ grp.expected place) ∧
         (a.misplaced = some true → a.verdict = some .unreadable) ∧
         (a.misplaced = some false → a.verdict = some (Verdict.ofCode (Beat.field b.data 6 1))) ∧
         (a.verdict = some .corrected → a.count = some (Beat.field b.data 7 1)) ∧
         (a.verdict ≠ some .corrected → a.count = none))) ∧
  (∀ (s : State) (g : Nat) (grp : Group) (m : Member) (a : Arrival) (v : Verdict),
      s.configured = true → s.group g = some grp → grp.role = .restore → grp.state = .gathering →
      grp.members[a.member]? = some m → m.slot = a.slot → a.verdict = some v →
      (s.frame a.slot).parityOk = true → (s.frame a.slot).state ≠ .quarantined →
      let t := s.arrive g a
      ∃ grp' m', t.group g = some grp' ∧ grp'.members[a.member]? = some m' ∧
        grp'.state = .gathering ∧ (∀ q, q ∈ m'.arrived ↔ q ∈ m.arrived ∨ q = a.position) ∧
        grp'.missing = (if a.position ∈ m.arrived then grp.missing else grp.missing - 1) ∧
        (grp'.missing ≠ 0 → grp'.gatherDeadline = grp.gatherDeadline ∧ t.agenda = s.agenda) ∧
        (grp'.missing = 0 → grp'.gatherDeadline = none ∧ t.agenda = .check g :: s.agenda) ∧
        m'.correctedTotal = min 65535 (m.correctedTotal + a.count.getD 0) ∧
        grp'.counts = { grp.counts with
          misplaced := grp.counts.misplaced + (if a.misplaced = some true then 1 else 0) } ∧
        (∀ i, i ≠ a.member → grp'.members[i]? = grp.members[i]?) ∧
        (t.frame a.slot).extent =
          (if v.good then (Extent.remove (s.frame a.slot).extent a.position).1
           else Extent.insert s.sectors (s.frame a.slot).extent { first := a.position, count := 1 }) ∧
        (∀ k, k ≠ a.slot → t.frame k = s.frame k) ∧ (∀ j, j ≠ g → t.group j = s.group j) ∧
        t.holds = s.holds ∧ t.port = s.port ∧ t.engine = s.engine ∧ t.conceal = s.conceal ∧
        t.control = s.control ∧ t.memPort = s.memPort) ∧
  (∀ (s : State) (g : Nat) (grp : Group) (m : Member) (a : Arrival) (v : Verdict),
      s.configured = true → s.group g = some grp → grp.role = .restore → grp.state = .awaitingReread →
      grp.members[a.member]? = some m → m.slot = a.slot → a.verdict = some v →
      (s.frame a.slot).parityOk = true → (s.frame a.slot).state ≠ .quarantined →
      let t := s.arrive g a
      let last := a.position ∈ m.requested ∧ m.outstanding ≤ 1 ∧
        ∀ i n, i ≠ a.member → grp.members[i]? = some n → n.outstanding = 0
      ∃ grp' m', t.group g = some grp' ∧ grp'.members[a.member]? = some m' ∧
        grp'.state = .awaitingReread ∧ m'.arrived = m.arrived ∧ grp'.missing = grp.missing ∧
        grp'.rounds = grp.rounds ∧ (∀ q, q ∈ m'.requested ↔ q ∈ m.requested ∧ q ≠ a.position) ∧
        m'.outstanding = (if a.position ∈ m.requested then m.outstanding - 1 else m.outstanding) ∧
        (¬ last → grp'.rereadDeadline = grp.rereadDeadline ∧ t.agenda = s.agenda) ∧
        (last → grp'.rereadDeadline = none ∧ t.agenda = .check g :: s.agenda) ∧
        m'.correctedTotal = min 65535 (m.correctedTotal + a.count.getD 0) ∧
        grp'.counts = { grp.counts with
          misplaced := grp.counts.misplaced + (if a.misplaced = some true then 1 else 0) } ∧
        (∀ i, i ≠ a.member → grp'.members[i]? = grp.members[i]?) ∧
        (t.frame a.slot).extent =
          (if v.good then (Extent.remove (s.frame a.slot).extent a.position).1
           else Extent.insert s.sectors (s.frame a.slot).extent { first := a.position, count := 1 }) ∧
        (∀ k, k ≠ a.slot → t.frame k = s.frame k) ∧ (∀ j, j ≠ g → t.group j = s.group j) ∧
        t.holds = s.holds ∧ t.port = s.port ∧ t.engine = s.engine ∧ t.conceal = s.conceal ∧
        t.control = s.control ∧ t.memPort = s.memPort) ∧
  (∀ (s : State) (ad : Addr) (tag : Fin 32) (b : WriteBeat) (r : PortRequest) (c : Configuration) (p : Place)
      (g : Nat) (grp : Group) (terms : RestoreTerms) (m : Member) (i q : Nat) (a : Arrival) (v : Verdict),
      requestOf (.recorderWrite ad tag [b]) = some r → s.ArenaRequest r c p → p.page = .tail →
      c.byTail p 1 = [q] → (s.frame p.slot).state = .arriving → s.ownerGroup p.slot = some (g, grp) →
      grp.role = .restore → grp.state = .gathering → grp.terms = some terms → terms.audit = true →
      1 ≤ grp.parityCount → grp.place p.slot = some i → grp.members[i]? = some m → q ∉ m.arrived →
      grp.missing = 1 → beatArrival grp p.slot i q b = some a → a.verdict = some v →
      c.wearThreshold = 0 → s.engine.state = .running →
      (∀ n ∈ grp.members, (s.frame n.slot).parityOk = true) →
      (let u := s.arrive g a; u.beyondParity grp = []) →
      ∃ t grp', exec (.recorderWrite ad tag [b]) s = .next t ∧ s.Settled t ∧
        t.group g = some grp' ∧ grp'.state = .auditing ∧ grp'.missing = 0 ∧ grp'.gatherDeadline = none ∧
        (∀ j, j ≠ g → t.group j = s.group j) ∧
        t.engine = { s.engine with
          queue := s.engine.queue ++ [{ group := g, kind := .audit, promoted := false }] } ∧
        t.accepted tag.val = some { s.acceptedEntry r with fence := some p.slot } ∧
        t.memPort = { s.memPort with passList := s.memPort.passList ++
          [{ ref := .pass tag.val, kind := .write, addr := r.addr, length := 1, beats := [b] }] } ∧
        (∀ k, k ≠ p.slot → t.frame k = s.frame k) ∧
        (t.frame p.slot).extent =
          (if v.good then (Extent.remove (s.frame p.slot).extent q).1
           else Extent.insert s.sectors (s.frame p.slot).extent { first := q, count := 1 }) ∧
        t.holds = s.holds ∧ t.conceal = s.conceal ∧ t.channels = s.channels ∧ t.control = s.control ∧
        t.port.sent = s.port.sent)

/-! ## Release passes (R57, R68 to R74) -/

/-- A release pass takes the entries marked in it in queue order: the first one leaves the list, every entry that
waits on it under SAME_PAGE is marked as well, its request is classified afresh before the pass goes on, and an entry
that has left the list is passed over (R57, R68, R73). A group's retirement or completed abandonment marks exactly
the entries that wait on that group, and its status write follows the pass (R69, R70, R110, R132); both stand behind
the presenting of a write whose arrival completed the group, so that passed requests go out in the order of their
classification (R49, R60; log 11). A finished REBUILD position of a group in RECONSTRUCTING releases exactly the
reads held under REPAIR_READ all of whose positions are finished and in no extent (R72). -/
def Obligations.ReleasePassTakesTheMarkedEntries : Prop :=
  (∀ (s : State) (marked : List Nat) (before after : List Held) (h : Held),
     s.holds = before ++ h :: after → h.tag ∈ marked → (∀ f ∈ before, f.tag ∉ marked) →
     ∃ next, (∀ k, k ∈ next ↔ (k ∈ marked ∧ k ≠ h.tag) ∨ ∃ f ∈ s.holds, f.waitsOn = .tag h.tag ∧ f.tag = k) ∧
       s.releaseNext marked = { s with
         holds := s.holds.filter (fun f => decide (f.tag ≠ h.tag))
         agenda := .classify h.tag :: .releasePass next :: s.agenda }) ∧
  (∀ (s : State) (marked : List Nat), (∀ h ∈ s.holds, h.tag ∉ marked) → s.releaseNext marked = s) ∧
  (∀ (s : State) (g : Nat), ∃ marked,
     (∀ k, k ∈ marked ↔ ∃ h ∈ s.holds, h.waitsOn = .group g ∧ h.tag = k) ∧
     ((∀ t ∈ s.agenda, t.presents = false) →
       s.releaseAndReport g = { s with agenda := .releasePass marked :: .statusWrite g :: s.agenda }) ∧
     (∀ (before after : List Task) (tag : Nat), s.agenda = before ++ .present tag :: after →
       (∀ t ∈ before, t.presents = false) →
       s.releaseAndReport g = { s with
         agenda := before ++ .present tag :: .releasePass marked :: .statusWrite g :: after })) ∧
  (∀ (s : State) (g position : Nat) (grp : Group), s.group g = some grp →
     (∀ h ∈ s.holds, h.waitsOn = .group g → (s.frame h.slot).parityOk = true) →
     (grp.state ≠ .reconstructing → s.noticePosition g position = s) ∧
     (grp.state = .reconstructing → ∃ marked,
       s.noticePosition g position = { s with agenda := .releasePass marked :: s.agenda } ∧
       ∀ k, k ∈ marked ↔ ∃ h ∈ s.holds, h.tag = k ∧ h.waitsOn = .group g ∧ h.case = .repairRead ∧
         ∀ q ∈ h.byPayload.toList ++ h.byTail, q ≤ position ∧ s.damagedAt h.slot q = false))

/-! ## Channel commands (R80 to R88) -/

/-- Which channel states accept which command in CONFIGURED: the table of R81. A command that is not taken changes
the channel's last command result and nothing in its state, fetch or groups: BLANK in BLANK, UNKNOWN for a value that
is not 1 to 4, REFUSED_STATE in CLEARING and FAULTED and for a state that refuses it; the mirror alone is handed the
change (R80, R81). -/
def Obligations.CommandsNotTakenChangeOnlyTheirResult : Prop :=
  (∀ st : ChannelState,
     (st.accepts .start = true ↔ st = .disabled) ∧
     (st.accepts .stop = true ↔ st = .loading ∨ st = .active ∨ st = .waiting ∨ st = .stopped) ∧
     (st.accepts .abort = true ↔ st ≠ .disabled) ∧
     (st.accepts .resume = true ↔ st = .waiting)) ∧
  (∀ (s : State) (i : Instr) (c : Fin 8) (result : CommandResult),
     s.agenda = [] → s.pins.resetLow = false →
     ((∃ k, commandOf i = some (c, k) ∧
         ((s.control.part = .blank ∧ result = .blank) ∨
          ((s.control.part = .clearing ∨ s.control.part = .faulted) ∧ result = .refusedState) ∨
          (s.control.part = .configured ∧ (s.channel c).state.accepts k = false ∧ result = .refusedState))) ∨
       (∃ v, i = .unknownCommand c v ∧ (v.toNat = 0 ∨ 4 < v.toNat) ∧
         result = if s.control.part = .blank then .blank else .unknown)) →
     ∃ t, exec i s = .next t ∧ s.Settled t ∧ s.SameFrames t ∧ s.SamePort t ∧
       t.channels = s.channels.set c { s.channel c with lastResult := some result } ∧
       t.port = s.port ∧ t.engine = s.engine ∧ t.control = s.control ∧ t.drawn = s.drawn ∧
       (∀ r ∈ s.memPort.serviceList, r.ref ≠ .mirror (1 + c.val) → r ∈ t.memPort.serviceList))

/-- START on a DISABLED channel and RESUME on a WAITING one: result ACCEPTED, one two-beat SERVICE read of the
channel word, LOADING; START also clears the error code and the occupied count (R83, R85). -/
def Obligations.StartAndResumeReadTheChannelWord : Prop :=
  ∀ (s : State) (c : Fin 8), s.agenda = [] → s.pins.resetLow = false → s.control.part = .configured →
    ((s.channel c).state = .disabled →
      ∃ t, exec (.start c) s = .next t ∧ s.Settled t ∧ s.SameFrames t ∧ s.SamePort t ∧
        t.channels = s.channels.set c { s.channel c with
          lastResult := some .accepted, errorCode := .none, occupied := 0
          fetch := .channelWord false, state := .loading } ∧
        { ref := .channelWord c, kind := .read, addr := channelWordAddr s.controlBase c, length := 2,
          beats := [] } ∈ t.memPort.serviceList ∧
        t.port = s.port ∧ t.engine = s.engine ∧ t.control = s.control) ∧
    ((s.channel c).state = .waiting →
      ∃ t, exec (.resume c) s = .next t ∧ s.Settled t ∧ s.SameFrames t ∧ s.SamePort t ∧
        t.channels = s.channels.set c { s.channel c with
          lastResult := some .accepted, fetch := .channelWord true, state := .loading } ∧
        { ref := .channelWord c, kind := .read, addr := channelWordAddr s.controlBase c, length := 2,
          beats := [] } ∈ t.memPort.serviceList ∧
        t.port = s.port ∧ t.engine = s.engine ∧ t.control = s.control)

/-- STOP accepted: no next plan address, a read in flight marked for discard, DRAINING; and DISABLED in the same step
when nothing is occupied and nothing in flight. No group is touched (R86). ABORT accepted on a channel without a live
group: as STOP, but into CLOSING; in CLOSING it changes only the result (R81, R87). -/
def Obligations.StopAndAbortEndTheChannel : Prop :=
  (∀ (s : State) (c : Fin 8), s.agenda = [] → s.pins.resetLow = false → s.control.part = .configured →
     (s.channel c).state.accepts .stop = true →
     ∃ t, exec (.stop c) s = .next t ∧ s.Settled t ∧ s.SameFrames t ∧ s.SamePort t ∧
       t.channel c = { s.channel c with
         lastResult := some .accepted, nextPlan := none
         discard := decide ((s.channel c).fetch ≠ .none)
         state := if (s.channel c).occupied = 0 ∧ (s.channel c).fetch = .none then .disabled
                  else .draining } ∧
       (∀ d, d ≠ c → t.channel d = s.channel d) ∧
       t.port = s.port ∧ t.engine = s.engine ∧ t.control.butLog = s.control.butLog) ∧
  (∀ (s : State) (c : Fin 8), s.agenda = [] → s.pins.resetLow = false → s.control.part = .configured →
     (s.channel c).state ≠ .disabled →
     (∀ g grp, s.group g = some grp → grp.channel = c → grp.state = .retiring) →
     Table.wf s.groups.entries = true →
     ∃ t, exec (.abort c) s = .next t ∧ s.Settled t ∧ s.SameFrames t ∧ s.SamePort t ∧
       t.channel c =
         (if (s.channel c).state = .closing then { s.channel c with lastResult := some .accepted }
          else { s.channel c with
           lastResult := some .accepted, nextPlan := none
           discard := decide ((s.channel c).fetch ≠ .none)
           state := if (s.channel c).occupied = 0 ∧ (s.channel c).fetch = .none then .disabled
                    else .closing }) ∧
       (∀ d, d ≠ c → t.channel d = s.channel d) ∧
       t.port = s.port ∧ t.engine = s.engine ∧ t.control.butLog = s.control.butLog)

/-- ABORT of a channel whose one live group is the engine's job in service with requests in flight: the group enters
ABANDONING, keeps its members and its holds, and the engine becomes ENDING (R87, R159). The completed abandonment of
a group: RETIRING with outcome ABANDONED and no deadline; a RECORD member STALE with empty extent, a RESTORE member
LOST if its extent is not empty and STALE otherwise, the owner dropped, a QUARANTINED member left so; the failed sets
of a RECORD group discarded and its counts 0, those of a RESTORE group as they stood but for concealed 0 and lost
counted anew; the Concealment Table entries of a CONCEALING group's members removed without report, and its pending
and outstanding tails forgotten; what waits on the group is marked for release, and its status write follows (R31,
R34, R70, R87, R114, R135, R173, R177). An entry that fails its check in that removal is left out. ABORT of a channel
whose one live group is not in service, with nothing held against it: the group's queued job, if it has one, leaves
the job queue, the others keeping their order; the abandonment completes in the same step, and the ABANDONED status
write is presented; the channel is CLOSING until it is answered (R87, R101, R135, R139). ABORT of a channel with
several live groups, the engine with no job or with one of theirs in service and nothing in flight, nothing held or
concealed and no other job queued: every one of them is RETIRING with outcome ABANDONED after that step, every job
has left the queue, none is taken into service, and no other group is touched (R87, R114, R135, R159). A group that
the ABORT being taken has still to abandon does not retire for a concealment that an abandonment before it completes:
the model's choice (log 31). -/
def Obligations.AbandonedGroupsEnd : Prop :=
  (∀ (s : State) (c : Fin 8) (g : Nat) (grp : Group) (k : JobKind), s.agenda = [] →
     s.pins.resetLow = false → s.control.part = .configured →
     (s.channel c).state ≠ .disabled → (s.channel c).state ≠ .closing → 0 < (s.channel c).occupied →
     s.channelGroups c = [g] → s.group g = some grp → grp.live = true → grp.state ≠ .abandoning →
     s.engine.service = some (g, k) → s.engine.inFlight ≠ [] →
     ∃ t, exec (.abort c) s = .next t ∧ s.Settled t ∧
       t.group g = some { grp with state := .abandoning, checkOk := true } ∧
       (∀ j, j ≠ g → t.group j = s.group j) ∧
       t.engine = { s.engine with state := .ending } ∧ (t.channel c).state = .closing ∧
       t.map = s.map ∧ t.holds = s.holds ∧ t.conceal = s.conceal ∧ t.port.sent = s.port.sent) ∧
  (∀ (s : State) (g : Nat) (grp : Group), s.group g = some grp →
      (grp.state = .concealing → ∀ e ∈ s.conceal.table, e.checkOk = true) →
      (∀ m ∈ grp.members, (s.frame m.slot).parityOk = true) → (grp.members.map (·.slot)).Nodup →
      let t := s.completeAbandon g
      ∃ grp', t.group g = some grp' ∧ grp'.state = .retiring ∧ grp'.outcome = some .abandoned ∧
        grp'.gatherDeadline = none ∧ grp'.rereadDeadline = none ∧ grp'.rounds = grp.rounds ∧
        (∀ m ∈ grp.members,
          t.frame m.slot =
            if (s.frame m.slot).state = .quarantined then { s.frame m.slot with owner := none }
            else if grp.role = .restore ∧ (s.frame m.slot).extent ≠ [] then
              { s.frame m.slot with state := .lost, owner := none }
            else { s.frame m.slot with state := .stale, extent := [], owner := none }) ∧
        (∀ k, k ∉ grp.members.map (·.slot) → t.frame k = s.frame k) ∧
        (∀ j, j ≠ g → t.group j = s.group j) ∧
        (grp.role = .record → (∀ m ∈ grp'.members, m.failed = []) ∧
          grp'.statusCounts = [0, 0, 0, 0, 0, 0, 0, 0]) ∧
        (grp.role = .restore → grp'.members = grp.members ∧ grp'.beyond = grp.beyond ∧
          grp'.counts = { grp.counts with
            concealed := 0
            lost := (grp.members.filter (fun m =>
              (t.frame m.slot).state == .lost || (t.frame m.slot).state == .quarantined)).length }) ∧
        t.conceal.table = s.conceal.table.filter (fun e =>
          decide (¬ (grp.state = .concealing ∧ e.target ∈ grp.members.map (·.slot)))) ∧
        (∀ w ∈ t.conceal.work, w.group ≠ g) ∧ t.holds = s.holds ∧ t.port.sent = s.port.sent ∧
        t.engine = s.engine ∧ t.channels = s.channels ∧ t.control = s.control ∧ t.memPort = s.memPort ∧
        ((∀ t ∈ s.agenda, t.presents = false) → ∃ marked,
          t.agenda = .releasePass marked :: .statusWrite g :: s.agenda ∧
          ∀ k, k ∈ marked ↔ ∃ h ∈ s.holds, h.waitsOn = .group g ∧ h.tag = k)) ∧
  (∀ (s : State) (c : Fin 8) (g : Nat) (grp : Group), s.agenda = [] →
      s.pins.resetLow = false → s.control.part = .configured →
      (s.channel c).state ≠ .disabled → (s.channel c).state ≠ .closing → 0 < (s.channel c).occupied →
      s.channelGroups c = [g] → s.group g = some grp → grp.live = true → grp.state ≠ .abandoning →
      (s.engine.service.map (·.1)) ≠ some g →
      (grp.state = .concealing → ∀ e ∈ s.conceal.table, e.checkOk = true) →
      (∀ m ∈ grp.members, (s.frame m.slot).parityOk = true) → (grp.members.map (·.slot)).Nodup →
      (∀ h ∈ s.holds, h.waitsOn ≠ .group g) →
      ∃ t grp', exec (.abort c) s = .next t ∧ s.Settled t ∧ t.group g = some grp' ∧
        grp'.state = .retiring ∧ grp'.outcome = some .abandoned ∧ grp'.gatherDeadline = none ∧
        grp'.rereadDeadline = none ∧ grp'.rounds = grp.rounds ∧
        (∀ m ∈ grp.members,
          t.frame m.slot =
            if (s.frame m.slot).state = .quarantined then { s.frame m.slot with owner := none }
            else if grp.role = .restore ∧ (s.frame m.slot).extent ≠ [] then
              { s.frame m.slot with state := .lost, owner := none }
            else { s.frame m.slot with state := .stale, extent := [], owner := none }) ∧
        (∀ k, k ∉ grp.members.map (·.slot) → t.frame k = s.frame k) ∧
        (∀ j, j ≠ g → t.group j = s.group j) ∧
        (grp.role = .record → (∀ m ∈ grp'.members, m.failed = []) ∧
          grp'.statusCounts = [0, 0, 0, 0, 0, 0, 0, 0]) ∧
        (grp.role = .restore → grp'.members = grp.members ∧ grp'.beyond = grp.beyond ∧
          grp'.counts = { grp.counts with
            concealed := 0
            lost := (grp.members.filter (fun m =>
              (t.frame m.slot).state == .lost || (t.frame m.slot).state == .quarantined)).length }) ∧
        t.conceal.table = s.conceal.table.filter (fun e =>
          decide (¬ (grp.state = .concealing ∧ e.target ∈ grp.members.map (·.slot)))) ∧
        (∀ w ∈ t.conceal.work, w.group ≠ g) ∧ t.holds = s.holds ∧ t.port.sent = s.port.sent ∧
        t.engine = { s.engine with queue := s.engine.queue.filter (fun j => decide (j.group ≠ g)) } ∧
        (t.channel c).state = .closing ∧ (∀ d, d ≠ c → t.channel d = s.channel d) ∧
        t.control = s.control ∧ s.SamePort t ∧
        (∃ r ∈ t.memPort.serviceList, r.ref = .status g grp.serial ∧ r.kind = .write ∧
          r.addr = grp.planAddress ∧ r.beats = [statusBeat .abandoned .none grp.rounds grp'.statusCounts])) ∧
  (∀ (s : State) (c : Fin 8), s.agenda = [] → s.pins.resetLow = false → s.control.part = .configured →
      (s.channel c).state ≠ .disabled → (s.channel c).state ≠ .closing → 0 < (s.channel c).occupied →
      Table.wf s.groups.entries = true → (s.channelGroups c).length ≤ 4 → s.holds = [] →
      s.conceal.table = [] → s.conceal.work = [] →
      (∀ g ∈ s.channelGroups c, ∀ grp, s.group g = some grp → grp.state ≠ .abandoning ∧
        ∀ m ∈ grp.members, (s.frame m.slot).parityOk = true) →
      (∀ j ∈ s.engine.queue, j.group ∈ s.channelGroups c) →
      (∀ g k, s.engine.service = some (g, k) →
        g ∈ s.channelGroups c ∧ s.engine.inFlight = [] ∧ ∀ j ∈ s.engine.queue, j.group ≠ g) →
      ∃ t, exec (.abort c) s = .next t ∧ s.Settled t ∧ (t.channel c).state = .closing ∧
        t.engine.service = none ∧ t.engine.queue = [] ∧
        (∀ g ∈ s.channelGroups c, ∃ grp, t.group g = some grp ∧ grp.state = .retiring ∧
          grp.outcome = some .abandoned) ∧
        (∀ g, g ∉ s.channelGroups c → t.group g = s.group g)) ∧
  (∀ (s : State) (g : Nat), .abandon g ∈ s.agenda → s.testConcealed g = s)

/-! ## Loads, warm clear, taken index, class clears (R192, R195 to R201, R204) -/

/-- LOAD enables memory writing, and is refused BUSY in CLEARING and FAULTED, in CONFIGURED while a channel is not
DISABLED, and while a load is pending; else it sets load pending and presents the eight-beat header read. Nothing
else changes (R192, R195). -/
def Obligations.LoadReadsTheHeaderOrIsBusy : Prop :=
  ∀ s : State, s.agenda = [] → s.pins.resetLow = false →
    let busy := s.control.part = .clearing ∨ s.control.part = .faulted ∨
      (s.control.part = .configured ∧ ∃ c : Fin 8, (s.channel c).state ≠ .disabled) ∨
      s.control.loadPending ≠ none
    ∃ t, exec .load s = .next t ∧ s.Settled t ∧ s.SameFrames t ∧ s.SamePort t ∧
      t.port = s.port ∧ t.engine = s.engine ∧ t.channels = s.channels ∧
      (busy → t.control = { s.control with writing := true, loadResult := .busy }) ∧
      (¬ busy → t.control = { s.control with writing := true, loadPending := some false } ∧
        { ref := .header, kind := .read, addr := s.controlBase, length := 8, beats := [] } ∈
          t.memPort.serviceList)

/-- WARM_CLEAR in CONFIGURED, and in FAULTED once the entry is complete: CLEARING; every held request answered in
queue order with its status, without report or fault; the engine QUIESCING, or QUIET with nothing in flight; searches
ended, channel reads marked for discard, the post list emptied, a pending load marked; the groups' deadlines
discarded (R76, R136, R160, R198 steps 1 to 3). That a QUIET engine still keeps its job, cursor and queue until the
clear ends is the model's choice (log 15), the era counters are its own (log 13), and that the report write that is
out is let go, so that a report posted after the clear does not wait for its answer, is its choice too (log 36). In
BLANK, where no block has anything to wait for, the clear runs to its end at once (log 26); in CLEARING it changes
nothing but that memory writing is enabled; during a fault entry it is noted (R192, R198). -/
def Obligations.WarmClearBegins : Prop :=
  (∀ s : State, s.agenda = [] → s.pins.resetLow = false →
     (s.control.part = .configured ∨ (s.control.part = .faulted ∧ s.control.entering = false)) →
     s.engine.state ≠ .quiet →
     ∃ t, exec .warmClear s = .next t ∧ s.Settled t ∧
       t.control = { s.control with
         part := .clearing, writing := true, clearNoted := false, posts := [], reportOut := false
         loadPending := s.control.loadPending.map (fun _ => true)
         era := s.control.era + 1, ringEra := s.control.ringEra + 1 } ∧
       s.AnswersHolds t ∧
       t.engine = { s.engine with state := if s.engine.inFlight = [] then .quiet else .quiescing } ∧
       t.map.entries = s.map.entries ∧ t.map.search = none ∧ t.map.pendingSearch = [] ∧
       (∀ c : Fin 8, t.channel c =
         if (s.channel c).fetch = .none then s.channel c else { s.channel c with discard := true }) ∧
       (∀ g grp, t.group g = some grp → grp.gatherDeadline = none ∧ grp.rereadDeadline = none) ∧
       t.conceal = s.conceal ∧ s.SamePort t) ∧
  (∀ s : State, s.agenda = [] → s.pins.resetLow = false → s.control.part = .blank →
     (∀ e ∈ s.conceal.table, e.checkOk = true) →
     ∃ t, exec .warmClear s = .next t ∧ s.Settled t ∧
       t.control = { s.control with
         part := if s.control.config = none then .blank else .configured
         writing := true, clearNoted := false, posts := [], reportOut := false
         loadPending := s.control.loadPending.map (fun _ => true)
         writeIndex := 0, taken := 0, overflow := false, takenRefused := false
         era := s.control.era + 1, ringEra := s.control.ringEra + 1 } ∧
       s.AnswersHolds t ∧ t.engine.state = .idle ∧ t.engine.queue = [] ∧ t.engine.service = none ∧
       t.engine.cursor = none ∧ t.engine.inFlight = [] ∧ t.groups.entries = [] ∧
       t.map = { entries := [], pendingSearch := [], search := none } ∧
       t.conceal = { table := [], work := [] } ∧ s.SamePort t) ∧
  (∀ s : State, s.agenda = [] → s.pins.resetLow = false →
     (s.control.part = .clearing ∨ (s.control.part = .faulted ∧ s.control.entering = true)) →
     ∃ t, exec .warmClear s = .next t ∧ s.Settled t ∧ s.SameFrames t ∧ s.SamePort t ∧
       t.control = { s.control with
         writing := true
         clearNoted := if s.control.part = .clearing then s.control.clearNoted else true } ∧
       t.port = s.port ∧ t.engine = s.engine ∧ t.channels = s.channels)

/-- The taken index (R201): in CONFIGURED and FAULTED a value V below the ring size that lies on the forward path
from the taken copy to the write index becomes the taken copy and clears the overflow flag and TAKEN_REFUSED; any
other sets TAKEN_REFUSED; in BLANK and CLEARING it is ignored. Nothing else changes but the mirror's part beat and
IRQ_N. -/
def Obligations.TakenIndexIsJudged : Prop :=
  ∀ (s : State) (v : Word32), s.agenda = [] → s.pins.resetLow = false →
    ∃ t, exec (.takenIndexWrite v) s = .next t ∧ s.Settled t ∧ s.SameFrames t ∧ s.SamePort t ∧
      t.port = s.port ∧ t.engine = s.engine ∧ t.channels = s.channels ∧
      ((s.control.part = .blank ∨ s.control.part = .clearing) → t.control = s.control) ∧
      (∀ c, (s.control.part = .configured ∨ s.control.part = .faulted) → s.control.config = some c →
        t.control =
          if v.toNat < c.ringSize ∧ (v.toNat + c.ringSize - s.control.taken) % c.ringSize ≤
              (s.control.writeIndex + c.ringSize - s.control.taken) % c.ringSize then
            { s.control with taken := v.toNat, overflow := false, takenRefused := false }
          else { s.control with takenRefused := true }) ∧
      (s.control.writing = true → t.control.partBeat ≠ s.control.partBeat →
        ∃ r ∈ t.memPort.serviceList, r.ref = .mirror 0 ∧
          r.beats = [{ data := t.control.partBeat, enables := BitVec.allOnes 32 }])

/-- A class clear makes its class's first record invalid and empties its next set, in every part state; the other
class stands (R204). -/
def Obligations.ClassClearEmptiesItsClass : Prop :=
  ∀ s : State, s.agenda = [] → s.pins.resetLow = false →
    (∃ t, exec .containedClassClear s = .next t ∧ s.Settled t ∧ s.SameFrames t ∧ s.SamePort t ∧
      t.port = s.port ∧ t.engine = s.engine ∧ t.channels = s.channels ∧
      t.control = { s.control with contained := { first := none, next := [] } } ∧
      (s.control.writing = true → (∃ r ∈ t.memPort.serviceList, r.ref = .faultPage 0) ∧
        ∃ r ∈ t.memPort.serviceList, r.ref = .faultPage 2 ∧
          r.beats = [{ data := 0, enables := BitVec.allOnes 32 }])) ∧
    (∃ t, exec .uncontainedClassClear s = .next t ∧ s.Settled t ∧ s.SameFrames t ∧ s.SamePort t ∧
      t.port = s.port ∧ t.engine = s.engine ∧ t.channels = s.channels ∧
      t.control = { s.control with uncontained := { first := none, next := [] } } ∧
      (s.control.writing = true → (∃ r ∈ t.memPort.serviceList, r.ref = .faultPage 1) ∧
        ∃ r ∈ t.memPort.serviceList, r.ref = .faultPage 3 ∧
          r.beats = [{ data := 0, enables := BitVec.allOnes 32 }]))

/-- When IRQ_N is driven low: the three conditions of R206, while RST_N is not low (R194); and that every command
leaves it at that level. -/
def Obligations.InterruptLevel : Prop :=
  (∀ s : State, s.interrupt = true ↔ s.pins.resetLow = false ∧
    ((s.control.writeIndex ≠ s.control.taken ∧ ∃ c, s.control.config = some c ∧ c.ringInterrupt = true) ∨
      s.control.uncontained.first ≠ none ∨
      (s.control.contained.first ≠ none ∧
        ∃ c, s.control.config = some c ∧ c.containedInterrupt = true))) ∧
  (∀ (c : Instr) (s t : State), exec c s = .next t → t.pins.irqLow = t.interrupt)

/-! ## The memory port (R180 to R186) -/

/-- The choice under STRICT: PASS when its list is non-empty, else SERVICE when its list is non-empty, else ENGINE;
and an issue under STRICT leaves the last-served class as it was (R184, R185). -/
def Obligations.StrictChoice : Prop :=
  ∀ s : State, s.mode = .strict →
    (s.memPort.passList ≠ [] → s.chosenClass = some .pass) ∧
    (s.memPort.passList = [] → s.memPort.serviceList ≠ [] → s.chosenClass = some .service) ∧
    (s.memPort.passList = [] → s.memPort.serviceList = [] → s.memPort.engineList ≠ [] →
      s.chosenClass = some .engine) ∧
    (s.memPort.passList = [] → s.memPort.serviceList = [] → s.memPort.engineList = [] →
      s.chosenClass = none) ∧
    s.issueOne.memPort.lastServed = s.memPort.lastServed

/-- The choice under FAIR: the walk of the ring PASS, SERVICE, ENGINE starts with the class after the last served and
takes the first whose list is non-empty (R185). ISSUE with a free tag and a class chosen hands the head of that
class's list to the memory under the lowest free tag; a passed request becomes ISSUED, lets its write data go and
loses its fence mark; under FAIR the class becomes the last served (R61, R180, R183, R185). -/
def Obligations.FairChoiceAndTheIssue : Prop :=
  (∀ s : State, s.mode = .fair →
     let after : RequestClass → RequestClass := fun
       | .pass => .service
       | .service => .engine
       | .engine => .pass
     let first := after s.memPort.lastServed
     let second := after first
     let third := after second
     (s.memPort.list first ≠ [] → s.chosenClass = some first) ∧
     (s.memPort.list first = [] → s.memPort.list second ≠ [] → s.chosenClass = some second) ∧
     (s.memPort.list first = [] → s.memPort.list second = [] → s.memPort.list third ≠ [] →
       s.chosenClass = some third)) ∧
  (∀ (s : State) (tag : Nat) (cl : RequestClass) (r : MemRequest) (rest : List MemRequest), s.agenda = [] →
     Table.lowestFree 32 s.memPort.tags = some tag → s.chosenClass = some cl →
     s.memPort.list cl = r :: rest →
     ∃ t, exec .issue s = .next t ∧ s.Settled t ∧ s.SameFrames t ∧
       t.memPort.list cl = rest ∧ (∀ d, d ≠ cl → t.memPort.list d = s.memPort.list d) ∧
       t.memPort.tags = Table.put tag { ref := r.ref, kind := r.kind } s.memPort.tags ∧
       (∀ k, k < tag → (Table.get s.memPort.tags k).isSome = true) ∧
       t.memPort.issued = s.memPort.issued ++
         [{ tag := tag, kind := r.kind, addr := r.addr, length := r.length, beats := r.beats }] ∧
       t.memPort.lastServed = (if s.mode = .fair then cl else s.memPort.lastServed) ∧
       (∀ rt a, r.ref = .pass rt → s.accepted rt = some a →
         t.port = { s.port with
           accepted := Table.put rt ({ a with disposition := .issued, fence := none, beats := [] } : Accepted)
             s.port.accepted }) ∧
       ((∀ rt, r.ref ≠ .pass rt) → t.port = s.port) ∧
       t.engine = s.engine ∧ t.channels = s.channels ∧ t.control = s.control)

/-- The answer to a passed request decides the recorder's response: OKAY with the memory's data for a read, OKAY for
a write without triggers, POISON with zero beats or REFUSED on ERROR, with no fault and no report; both tags are free
and nothing else changes (R43, R49, R186). The answer to a source read serves the redirected read: its data on OKAY,
POISON with zero beats on ERROR, with no fault (R58). -/
def Obligations.MemoryAnswersTheRecordersRequests : Prop :=
  (∀ (s : State) (tag : Fin 32) (status : MemStatus) (beats : List Beat) (rt : Nat) (a : Accepted),
     s.agenda = [] → s.tagRef tag = some (.pass rt) → s.accepted rt = some a →
     (a.kind = .write → status = .okay → a.triggers = []) →
     exec (.passAnswer tag status beats) s = .next (State.driveInterrupt { s with
       port := { s.port with
         accepted := Table.remove rt s.port.accepted
         sent := s.port.sent ++ [{
           tag := rt
           status := if status = .okay then .okay else if a.kind = .read then .poison else .refused
           beats := if a.kind = .read then
               (if status = .okay then beats else List.replicate a.length 0)
             else [] }] }
       memPort := { s.memPort with tags := Table.remove tag.val s.memPort.tags } })) ∧
  (∀ (s : State) (tag : Fin 32) (status : MemStatus) (beats : List Beat) (rt : Nat) (a : Accepted),
     s.agenda = [] → s.tagRef tag = some (.sourceRead rt) → s.accepted rt = some a → a.kind = .read →
     exec (.sourceReadAnswer tag status beats) s = .next (State.driveInterrupt { s with
       port := { s.port with
         accepted := Table.remove rt s.port.accepted
         sent := s.port.sent ++ [{
           tag := rt, status := if status = .okay then .okay else .poison
           beats := if status = .okay then beats else List.replicate a.length 0 }] }
       memPort := { s.memPort with tags := Table.remove tag.val s.memPort.tags } }))

/-- The OKAY answer to a trigger write sends the response and hands the items of its trigger list over in the same
step, in list order, each against the state its predecessors and their effects left; on ERROR the write is REFUSED
and the list discarded (R48). Each item acts as the command of its word does: LOAD, WARM_CLEAR, the four channel
commands and unknown values, the taken index and the class clears; a load, clear or class clear word of a value other
than 1 is ignored (R192). So an accepted taken index becomes the taken copy, and a START in the burst of a clear word
finds the part CLEARING and is refused (R102, R201). The trigger list of a write: every trigger word all of whose
four bytes the write enables, with the value written, in ascending address order; the words lie at offsets 100h
(load), 120h (clear), 210h + c × 40h (the command field of channel c), 400h (taken index), 1080h and 10A0h (the class
clears) of the control area, whose base is the strap value × 4 GiB (R48, R192, R208). -/
def Obligations.AnsweredTriggerWriteActs : Prop :=
  (∀ (s : State) (tag : Fin 32) (rt : Nat) (a : Accepted) (beats : List Beat), s.tagRef tag = some (.pass rt) →
     s.accepted rt = some a → a.kind = .write →
     exec (.passAnswer tag .okay beats) s = .next (s.settle
       (((s.freeTag tag).respond rt .okay []).push (a.triggers.map Task.trigger))) ∧
     (s.agenda = [] → ∃ t, exec (.passAnswer tag .error beats) s = .next t ∧ s.Settled t ∧ s.SameFrames t ∧
       t.control = s.control ∧ t.channels = s.channels ∧ t.engine = s.engine ∧ t.accepted rt = none ∧
       t.port.sent = s.port.sent ++ [{ tag := rt, status := .refused, beats := [] }])) ∧
  (∀ (s : State) (w : Trigger) (rest : List Task) (k : Nat), s.agenda = .trigger w :: rest →
     s.run (k + 1) = State.run k (State.takeTrigger { s with agenda := rest } w)) ∧
  (∀ s : State, s.pins.resetLow = false →
     exec .load s = .next (s.settle (s.takeTrigger { word := .load, value := 1 })) ∧
     exec .warmClear s = .next (s.settle (s.takeTrigger { word := .clear, value := 1 })) ∧
     exec .containedClassClear s = .next (s.settle (s.takeTrigger { word := .containedClear, value := 1 })) ∧
     exec .uncontainedClassClear s =
       .next (s.settle (s.takeTrigger { word := .uncontainedClear, value := 1 })) ∧
     (∀ v, exec (.takenIndexWrite v) s = .next (s.settle (s.takeTrigger { word := .taken, value := v }))) ∧
     (∀ c : Fin 8,
       exec (.start c) s = .next (s.settle (s.takeTrigger { word := .command c, value := 1 })) ∧
       exec (.stop c) s = .next (s.settle (s.takeTrigger { word := .command c, value := 2 })) ∧
       exec (.abort c) s = .next (s.settle (s.takeTrigger { word := .command c, value := 3 })) ∧
       exec (.resume c) s = .next (s.settle (s.takeTrigger { word := .command c, value := 4 })) ∧
       ∀ v : Word32, v.toNat = 0 ∨ 4 < v.toNat →
         exec (.unknownCommand c v) s = .next (s.settle (s.takeTrigger { word := .command c, value := v })))) ∧
  (∀ (s : State) (w : TriggerWord) (v : Word32), v ≠ 1 →
     (w = .load ∨ w = .clear ∨ w = .containedClear ∨ w = .uncontainedClear) →
     s.takeTrigger { word := w, value := v } = s) ∧
  (∀ (s : State) (tag : Fin 32) (rt : Nat) (a : Accepted) (v : Word32) (c : Configuration),
     s.agenda = [] → s.tagRef tag = some (.pass rt) → s.accepted rt = some a → a.kind = .write →
     a.triggers = [{ word := .taken, value := v }] → s.control.part = .configured →
     s.control.config = some c → s.control.takenAccepted c.ringSize v.toNat = true →
     ∃ t, exec (.passAnswer tag .okay []) s = .next t ∧ s.Settled t ∧ t.control.taken = v.toNat ∧
       t.port.sent = s.port.sent ++ [{ tag := rt, status := .okay, beats := [] }] ∧ t.accepted rt = none) ∧
  (∀ (s : State) (tag : Fin 32) (rt : Nat) (a : Accepted) (c : Fin 8),
     s.agenda = [] → s.tagRef tag = some (.pass rt) → s.accepted rt = some a → a.kind = .write →
     a.triggers = [{ word := .clear, value := 1 }, { word := .command c, value := 1 }] →
     s.control.part = .configured →
     ∃ t, exec (.passAnswer tag .okay []) s = .next t ∧ s.Settled t ∧ t.control.part = .clearing ∧
       (t.channel c).state = (s.channel c).state ∧ (t.channel c).fetch = (s.channel c).fetch ∧
       (t.channel c).lastResult = some .refusedState) ∧
  (∀ (s : State) (addr : Nat) (beats : List WriteBeat),
      let place := fun (w : TriggerWord) => s.controlBase + match w with
        | .load => 0x100 | .clear => 0x120 | .command c => 0x210 + 0x40 * c.val | .taken => 0x400
        | .containedClear => 0x1080 | .uncontainedClear => 0x10A0
      s.controlBase = s.pins.caSel.toNat * 2 ^ 32 ∧
      (∀ (w : TriggerWord) (v : Word32), { word := w, value := v } ∈ triggerList s.controlBase addr beats ↔
        addr ≤ place w ∧ ∃ b, beats[(place w - addr) / 32]? = some b ∧
          (∀ i, i < 4 → b.enables.getLsbD ((place w - addr) % 32 + i) = true) ∧
          v = BitVec.ofNat 32 (Beat.field b.data ((place w - addr) % 32) 4)) ∧
      (triggerList s.controlBase addr beats).Pairwise (fun a b => place a.word < place b.word))

/-- A response whose tag is not in use is discarded, with no effect on any block (R180). The answers to mirror and
fault page writes, OKAY or ERROR, free their tags and do nothing else (R204, R205). -/
def Obligations.AnswersWithoutFurtherEffect : Prop :=
  (∀ (s : State) (tag : Fin 32) (status : MemStatus) (beats : List Beat), s.Sound →
     s.tagRef tag = none → exec (.unknownTagResponse tag status beats) s = .next s) ∧
  (∀ (s : State) (tag : Fin 32) (status : MemStatus) (k : Nat), s.Sound →
     let freed := { s with memPort := { s.memPort with tags := Table.remove tag.val s.memPort.tags } }
     (s.tagRef tag = some (.mirror k) → exec (.mirrorWriteAnswer tag status) s = .next freed) ∧
     (s.tagRef tag = some (.faultPage k) → exec (.faultPageWriteAnswer tag status) s = .next freed))

/-! ## Channel words, plans and status writes (R79, R83 to R101) -/

/-- The answer to a channel word read that passes with a head that is not NULL: at START the role and the window are
taken, at RESUME only the head is used; the next plan address is the head, and a channel with room in its window
begins the fetch of the plan there, four beats, and is LOADING, while one whose window is full is ACTIVE with its
next plan address present and begins none (R79, R83, R84, R85). No CHANNEL_STATE report is posted for either (R89). A
channel word read that fails, or whose head is NULL, or whose answer is to be dropped: STOPPED with the error code
and PLAN_ERROR; WAITING; or fetch none with the mark cleared, and a DRAINING channel with nothing occupied then
DISABLED (R83, R85, R86, R88). A channel word read or a plan fetch marked for discard is dropped, OKAY or ERROR, in
every part state: fetch none, the mark cleared, and a DRAINING or CLOSING channel with nothing occupied is DISABLED,
with a CHANNEL_STATE report in CONFIGURED (R86, R87, R88, R186); that there is none during a fault entry is read from
R102 (log 22). -/
def Obligations.ChannelWordIsJudged : Prop :=
  (∀ (s : State) (tag : Fin 32) (beats : List Beat) (c : Fin 8) (resume : Bool) (role : Option Role)
      (window head : Nat),
      s.agenda = [] → s.tagRef tag = some (.channelWord c) → s.control.part = .configured →
      (s.channel c).discard = false → (s.channel c).fetch = .channelWord resume →
      (resume = false → role = Role.ofCode (beatsField beats 8 1) ∧ role ≠ none ∧
        window = beatsField beats 9 1 ∧ 1 ≤ window ∧ window ≤ 4) →
      (resume = true → role = (s.channel c).role ∧ (s.channel c).window = some window) →
      head = addressField beats 0 → head ≠ 0 → head % 128 = 0 →
      ∃ t, exec (.channelWordReadAnswer tag .okay beats) s = .next t ∧ s.Settled t ∧ s.SameFrames t ∧
        ((s.channel c).occupied < window →
          t.channels = s.channels.set c { s.channel c with
            role := role, window := some window, nextPlan := none, fetch := .plan head, state := .loading } ∧
          { ref := .planFetch c, kind := .read, addr := head, length := 4, beats := [] } ∈
            t.memPort.serviceList) ∧
        (window ≤ (s.channel c).occupied →
          t.channels = s.channels.set c { s.channel c with
            role := role, window := some window, nextPlan := some head, fetch := .none, state := .active } ∧
          ∀ r ∈ t.memPort.serviceList, r.ref = .planFetch c → r ∈ s.memPort.serviceList) ∧
        t.memPort.tags = Table.remove tag.val s.memPort.tags ∧
        t.port = s.port ∧ t.engine = s.engine ∧ t.control = s.control) ∧
  (∀ (s : State) (tag : Fin 32) (status : MemStatus) (beats : List Beat) (c : Fin 8) (resume : Bool),
     s.agenda = [] → s.tagRef tag = some (.channelWord c) → s.control.part = .configured →
     (s.channel c).fetch = .channelWord resume →
     ∃ t, exec (.channelWordReadAnswer tag status beats) s = .next t ∧ s.Settled t ∧
       t.memPort.tags = Table.remove tag.val s.memPort.tags ∧
       ((s.channel c).discard = false → ∀ code,
         ((status = .error ∧ code = .readError) ∨
          (status = .okay ∧ resume = false ∧ (Role.ofCode (beatsField beats 8 1) = none ∨
             beatsField beats 9 1 = 0 ∨ 4 < beatsField beats 9 1) ∧ code = .field) ∨
          (status = .okay ∧ (resume = true ∨ (Role.ofCode (beatsField beats 8 1) ≠ none ∧
             1 ≤ beatsField beats 9 1 ∧ beatsField beats 9 1 ≤ 4)) ∧
             addressField beats 0 % 128 ≠ 0 ∧ code = .align)) →
         t.channel c = { s.channel c with errorCode := code, state := .stopped, fetch := .none } ∧
         s.SameFrames t ∧
         (t.control.contained.first = some (planErrorFault c code none none) ∨
           .planError ∈ t.control.contained.next)) ∧
       ((s.channel c).discard = false → status = .okay → resume = false → addressField beats 0 = 0 →
         Role.ofCode (beatsField beats 8 1) ≠ none → 1 ≤ beatsField beats 9 1 → beatsField beats 9 1 ≤ 4 →
         t.channel c = { s.channel c with
           role := Role.ofCode (beatsField beats 8 1), window := some (beatsField beats 9 1)
           nextPlan := none, fetch := .none, state := .waiting }) ∧
       ((s.channel c).discard = false → status = .okay → resume = true → addressField beats 0 = 0 →
         t.channel c = { s.channel c with nextPlan := none, fetch := .none, state := .waiting }) ∧
       ((s.channel c).discard = true →
         t.channel c = { s.channel c with
           fetch := .none, discard := false
           state := if ((s.channel c).state = .draining ∨ (s.channel c).state = .closing) ∧
               (s.channel c).occupied = 0 then .disabled else (s.channel c).state })) ∧
  (∀ (s : State) (tag : Fin 32) (status : MemStatus) (beats : List Beat) (c : Fin 8) (plan : Bool),
      s.agenda = [] → s.tagRef tag = some (if plan then .planFetch c else .channelWord c) →
      (s.channel c).discard = true →
      let disabled := ((s.channel c).state = .draining ∨ (s.channel c).state = .closing) ∧
        (s.channel c).occupied = 0
      ∃ t, exec (if plan then .planFetchAnswer tag status beats else .channelWordReadAnswer tag status beats) s =
          .next t ∧ s.Settled t ∧ s.SameFrames t ∧
        t.channel c = { s.channel c with
          fetch := .none, discard := false, state := if disabled then .disabled else (s.channel c).state } ∧
        (∀ d, d ≠ c → t.channel d = s.channel d) ∧
        t.memPort.tags = Table.remove tag.val s.memPort.tags ∧ t.port = s.port ∧ t.engine = s.engine ∧
        (s.control.part ≠ .configured ∨ ¬ disabled → t.control = s.control) ∧
        (s.control.part = .configured → disabled → s.RingRoom → t.control = { s.control with
          posts := s.control.posts ++ [.channelState c .disabled (s.channel c).errorCode], reportOut := true }))

/-- Checks 2 to 6 of a plan, made on its copy, in their order, with the offending slot (R95, R96). A plan that fails
one of them, or whose fetch was answered ERROR (check 1), or that lists a slot in FILLING, ARRIVING or QUARANTINED
(SLOT_BUSY), is rejected: a status write of outcome REJECTED at the plan address, the channel STOPPED with the error
code, no slot claimed and no group made (R24, R95, R99). -/
def Obligations.PlanIsCheckedInOrderAndRejected : Prop :=
  (∀ (p : PlanBlock) (role : Role) (slotCount : Nat),
     let counts := p.dataCount < 2 ∨ 12 < p.dataCount ∨ 3 < p.parityCount
     let field := role = .restore ∧ (2 < p.policy ∨ p.reach = 0 ∨ 4 < p.reach ∨ 3 < p.rereadBudget ∨
       p.rereadLimit = 0)
     let slots := p.slots.take (p.dataCount + p.parityCount)
     (counts → p.check (some role) slotCount = some (.counts, none)) ∧
     (¬ counts → field → p.check (some role) slotCount = some (.field, none)) ∧
     (∀ before k after, ¬ counts → ¬ field → slots = before ++ k :: after →
       (∀ j ∈ before, j < slotCount) → slotCount ≤ k →
       p.check (some role) slotCount = some (.slotRange, some k)) ∧
     (∀ before k after, ¬ counts → ¬ field → (∀ j ∈ slots, j < slotCount) →
       slots = before ++ k :: after → before.Nodup → k ∈ before →
       p.check (some role) slotCount = some (.slotRepeat, some k)) ∧
     (¬ counts → ¬ field → (∀ j ∈ slots, j < slotCount) → slots.Nodup →
       p.check (some role) slotCount =
         if p.link % 128 ≠ 0 then some (.align, none) else none)) ∧
  (∀ (s : State) (tag : Fin 32) (status : MemStatus) (beats : List Beat) (c : Fin 8) (role : Role)
     (addr : Nat) (k : Configuration) (code : ErrorCode) (slot : Option Nat),
     s.agenda = [] → s.tagRef tag = some (.planFetch c) → s.control.part = .configured →
     s.control.config = some k → (s.channel c).discard = false → (s.channel c).fetch = .plan addr →
     (s.channel c).role = some role →
     ((status = .error ∧ code = .readError) ∨
       (status = .okay ∧ (PlanBlock.ofBeats beats).check (some role) k.slotCount = some (code, slot)) ∨
       (status = .okay ∧ (PlanBlock.ofBeats beats).check (some role) k.slotCount = none ∧ code = .slotBusy ∧
         (∃ g, Table.lowestFree 32 s.groups.entries = some g) ∧
         (∀ j ∈ (PlanBlock.ofBeats beats).memberSlots, (s.frame j).parityOk = true) ∧
         ∃ j ∈ (PlanBlock.ofBeats beats).memberSlots, (s.frame j).state = .filling ∨
           (s.frame j).state = .arriving ∨ (s.frame j).state = .quarantined)) →
     ∃ t, exec (.planFetchAnswer tag status beats) s = .next t ∧ s.Settled t ∧ s.SameFrames t ∧
       t.channels = s.channels.set c { s.channel c with
         errorCode := code, state := .stopped, fetch := .none } ∧
       (∃ r ∈ t.memPort.serviceList, r.ref = .rejectedStatus c addr s.control.era ∧ r.kind = .write ∧
         r.addr = addr ∧ r.beats = [statusBeat .rejected code 0 []]) ∧
       t.memPort.tags = Table.remove tag.val s.memPort.tags ∧ t.port = s.port ∧ t.engine = s.engine)

/-- A plan that passes its checks and whose claim passes takes the lowest free Group Table entry, and every listed
slot becomes a FILLING or ARRIVING member of the new group; the channel's occupied and plans loaded counts rise by
one (R24, R25, R90, R97). -/
def Obligations.ValidPlanMakesAGroup : Prop :=
  ∀ (s : State) (tag : Fin 32) (beats : List Beat) (c : Fin 8) (role : Role) (addr g : Nat)
    (k : Configuration),
    let p := PlanBlock.ofBeats beats
    s.agenda = [] → s.tagRef tag = some (.planFetch c) → s.control.part = .configured →
    s.control.config = some k → (s.channel c).discard = false → (s.channel c).fetch = .plan addr →
    (s.channel c).role = some role → p.check (some role) k.slotCount = none →
    Table.lowestFree 32 s.groups.entries = some g →
    (∀ j ∈ p.memberSlots, (s.frame j).parityOk = true ∧ (s.frame j).state ≠ .filling ∧
      (s.frame j).state ≠ .arriving ∧ (s.frame j).state ≠ .quarantined) →
    s.conceal.table = [] → s.conceal.work = [] →
    ∃ t grp, exec (.planFetchAnswer tag .okay beats) s = .next t ∧ s.Settled t ∧
      t.group g = some grp ∧ grp.channel = c ∧ grp.role = role ∧ grp.groupNumber = p.groupNumber ∧
      grp.planAddress = addr ∧ grp.firstFrame = p.firstFrame ∧ grp.dataCount = p.dataCount ∧
      grp.parityCount = p.parityCount ∧ grp.members.map (·.slot) = p.memberSlots ∧
      grp.state = (if role = .record then .collecting else .gathering) ∧ grp.rounds = 0 ∧
      grp.counts = GroupCounts.zero ∧ grp.beyond = [] ∧ grp.madeLost = 0 ∧ grp.outcome = none ∧
      grp.gatherDeadline = (if role = .record ∨ p.gatherLimit = 0 then none
        else some (s.time + p.gatherLimit * 1000)) ∧
      (∀ j, j ≠ g → t.group j = s.group j) ∧
      (∀ i j, p.memberSlots[i]? = some j →
        (t.frame j).state = (if role = .record then .filling else .arriving) ∧
        (t.frame j).owner = some g ∧ (t.frame j).extent = [] ∧ (t.frame j).worn = false ∧
        (t.frame j).kind = some (if i < p.dataCount then .data else .parity (i - p.dataCount)) ∧
        (t.frame j).expected = some (if i < p.dataCount then p.firstFrame + BitVec.ofNat 32 i
          else p.groupNumber)) ∧
      (∀ j, j ∉ p.memberSlots → t.frame j = s.frame j) ∧
      (t.channel c).occupied = (s.channel c).occupied + 1 ∧
      (t.channel c).plansLoaded = (s.channel c).plansLoaded + 1 ∧
      (∀ d, d ≠ c → t.channel d = s.channel d) ∧ t.holds = s.holds ∧ t.port = s.port ∧
      t.engine = s.engine

/-- The answer to a rejected plan's status write: nothing on OKAY; on ERROR, SERVICE_WRITE_ERROR with the channel and
the plan address; the channel is unaffected (R99). The answer to a group's status write, OKAY or ERROR, ends the
group: its entry is free, its channel's occupied count falls and its groups retired count rises by one; other groups
stand (R91, R101). GROUP_DONE is posted with the channel, the group number, the outcome, the rounds used, the eight
counts of the status word, the misplaced count held at 65535 and the worn frames count held at 255, whether the
answer is OKAY or ERROR; on ERROR SERVICE_WRITE_ERROR is taken as well, with the channel, the group number and the
plan address (R101, R111, R134). That GROUP_DONE is posted before the fault is raised and its FAULT report posted is
the model's choice (log 23). -/
def Obligations.StatusWriteAnswers : Prop :=
  (∀ (s : State) (tag : Fin 32) (status : MemStatus) (c : Fin 8) (addr : Nat), s.agenda = [] →
     s.tagRef tag = some (.rejectedStatus c addr s.control.era) → s.control.part = .configured →
     ∃ t, exec (.rejectedStatusWriteAnswer tag status) s = .next t ∧ s.Settled t ∧ s.SameFrames t ∧
       t.port = s.port ∧ t.engine = s.engine ∧ t.channels = s.channels ∧
       t.control.butLog = s.control.butLog ∧ t.memPort.tags = Table.remove tag.val s.memPort.tags ∧
       (status = .okay → t.control = s.control) ∧
       (status = .error → s.control.contained.took t.control.contained
         { kind := .serviceWriteError, channel := some c, groupNumber := none, slot := none, sector := none,
           detail := some (.planAddress addr) })) ∧
  (∀ (s : State) (tag : Fin 32) (status : MemStatus) (g : Nat) (grp : Group) (o : GroupOutcome),
     s.agenda = [] → s.tagRef tag = some (.status g grp.serial) → s.control.part = .configured →
     s.group g = some grp → grp.state = .retiring → grp.outcome = some o →
     ∃ t, exec (.statusWriteAnswer tag status) s = .next t ∧ s.Settled t ∧
       t.group g = none ∧ (∀ j, j ≠ g → t.group j = s.group j) ∧
       (t.channel grp.channel).occupied = (s.channel grp.channel).occupied - 1 ∧
       (t.channel grp.channel).groupsRetired = (s.channel grp.channel).groupsRetired + 1 ∧
       (∀ d, d ≠ grp.channel → t.channel d = s.channel d) ∧
       t.memPort.tags = Table.remove tag.val s.memPort.tags ∧
       (s.RingRoom → ∃ later,
         t.control.posts = s.control.posts ++
           .groupDone grp.channel grp.groupNumber o grp.rounds grp.statusCounts
             (min grp.counts.misplaced 65535) (min grp.counts.wornFrames 255) :: later ∧
         (∀ x ∈ later, x.kind = .fault ∨ x.kind = .channelState) ∧
         (status = .okay → ∀ x ∈ later, x.kind = .channelState)) ∧
       (s.RingRoom → status = .okay → (s.channel grp.channel).state ≠ .draining →
         (s.channel grp.channel).state ≠ .closing → t.control = { s.control with
           posts := s.control.posts ++ [.groupDone grp.channel grp.groupNumber o grp.rounds grp.statusCounts
             (min grp.counts.misplaced 65535) (min grp.counts.wornFrames 255)]
           reportOut := true }) ∧
       (status = .error →
         let fault : FaultRecord :=
           { kind := .serviceWriteError, channel := some grp.channel, groupNumber := some grp.groupNumber
             slot := none, sector := none, detail := some (.planAddress grp.planAddress) }
         (t.control.contained.first = some fault ∨ .serviceWriteError ∈ t.control.contained.next) ∧
         (s.RingRoom → s.control.contained.took t.control.contained fault)) ∧
       t.map = s.map ∧ t.holds = s.holds ∧ t.conceal = s.conceal ∧ t.port = s.port ∧ t.engine = s.engine)

/-! ## RECORD and RESTORE groups (R103 to R136) -/

/-- A RECORD arrival in COLLECTING: a position already in the arrival set changes nothing; a new one joins it and
uncollected falls by one; in no other state is it taken; the Frame Map is not edited (R104, R105). The last one ends
the collection: the group retires at once when P is 0, and else enters SEALING with a SEAL job (R106). The one-beat
tail write that carries it, with the engine IDLE and no job waiting: the group is SEALING, the engine RUNNING its
SEAL job at position 0 with the D reads due, every write to a member that waits for issue is fenced, and so is this
write as it is presented (R8, R54, R61, R106, R140, R146). -/
def Obligations.CompletedCollectionIsSealed : Prop :=
  (∀ (s : State) (g : Nat) (grp : Group) (m : Member) (a : Arrival), s.configured = true →
     s.group g = some grp → grp.role = .record → grp.members[a.member]? = some m →
     (grp.state ≠ .collecting → s.arrive g a = s) ∧
     (grp.state = .collecting → a.position ∈ m.arrived → s.arrive g a = s) ∧
     (grp.state = .collecting → a.position ∉ m.arrived → 1 ≤ grp.missing →
       ∃ grp' m', (s.arrive g a).group g = some grp' ∧ grp'.members[a.member]? = some m' ∧
         (∀ q, q ∈ m'.arrived ↔ q ∈ m.arrived ∨ q = a.position) ∧ m'.failed = m.failed ∧
         (∀ i, i ≠ a.member → grp'.members[i]? = grp.members[i]?) ∧ grp'.missing = grp.missing - 1 ∧
         (s.arrive g a).map = s.map ∧ (s.arrive g a).holds = s.holds ∧
         (s.arrive g a).control = s.control ∧ (s.arrive g a).memPort = s.memPort ∧
         (1 < grp.missing → grp'.state = .collecting ∧ (s.arrive g a).engine = s.engine ∧
           (s.arrive g a).agenda = s.agenda ∧ (s.arrive g a).port = s.port) ∧
         (grp.missing = 1 → grp.parityCount = 0 → grp'.state = .collecting ∧
           (s.arrive g a).engine = s.engine ∧ (s.arrive g a).agenda = .retire g :: s.agenda) ∧
         (grp.missing = 1 → 1 ≤ grp.parityCount → grp'.state = .sealing ∧
           (s.arrive g a).engine = { s.engine with
             queue := s.engine.queue ++ [{ group := g, kind := .seal, promoted := false }] } ∧
           .takeJob ∈ (s.arrive g a).agenda))) ∧
  (∀ (s : State) (a : Addr) (tag : Fin 32) (b : WriteBeat) (r : PortRequest) (c : Configuration) (p : Place)
     (g : Nat) (grp : Group) (m : Member) (i q : Nat),
     requestOf (.recorderWrite a tag [b]) = some r → s.ArenaRequest r c p → p.page = .tail →
     c.byTail p 1 = [q] → b.enables ≠ 0 → (s.frame p.slot).state = .filling →
     s.ownerGroup p.slot = some (g, grp) → grp.role = .record → grp.state = .collecting →
     grp.place p.slot = some i → i < grp.dataCount → grp.members[i]? = some m → q ∉ m.arrived →
     grp.missing = 1 → 1 ≤ grp.parityCount → s.engine.state = .idle → s.engine.queue = [] →
     ∃ t grp', exec (.recorderWrite a tag [b]) s = .next t ∧ s.Settled t ∧
       t.group g = some grp' ∧ grp'.state = .sealing ∧ grp'.missing = 0 ∧
       (∀ j, j ≠ g → t.group j = s.group j) ∧
       t.engine = { s.engine with
         state := .running, queue := [], service := some (g, .seal), cursor := some 0
         context := { PositionContext.empty with
           chosen := List.range grp.dataCount
           due := (List.range grp.dataCount).map (fun k => { member := k, op := .readSector }) } } ∧
       t.accepted tag.val = some { s.acceptedEntry r with fence := some p.slot } ∧
       (∀ k e, k ≠ tag.val → s.accepted k = some e → ∃ e', t.accepted k = some e' ∧
         { e' with fence := e.fence } = e ∧
         ((e.kind = .write ∧ e.disposition = .waitingIssue ∧ ∃ j, s.slotOf e.addr = some j ∧
             j ∈ grp.members.map (·.slot)) → e'.fence = s.slotOf e.addr) ∧
         (¬ (e.kind = .write ∧ e.disposition = .waitingIssue ∧ ∃ j, s.slotOf e.addr = some j ∧
             j ∈ grp.members.map (·.slot)) → e'.fence = e.fence)) ∧
       t.memPort = { s.memPort with passList := s.memPort.passList ++
         [{ ref := .pass tag.val, kind := .write, addr := r.addr, length := 1, beats := [b] }] } ∧
       t.map = s.map ∧ t.holds = s.holds ∧ t.conceal = s.conceal ∧ t.channels = s.channels ∧
       t.control = s.control ∧ t.port.sent = s.port.sent)

/-- A SEAL position whose data reads failed fails every parity member there and writes nothing; else each parity
sector is due to be written (R146, R147). A finished SEAL position joins the failed set of each parity member that
failed at it; after position N − 1 the engine is IDLE and the group retires before the next job is taken (R109, R145;
log 23). A RECORD group that retires: outcome SEALED, or SEALED_DEGRADED when some failed set is not empty; a member
SEALED with an empty extent, or LOST with its failed positions in its extent; a QUARANTINED member left so; the owner
dropped; the members given LOST counted in a field of the model's own (log 34), the failed sets and the restore
counters of the record as they were, so that the status counts are those of R110 (R103); what waits on the group is
released and its status write follows (R29, R34, R109, R110). The status write is one beat at the plan address; none
is issued outside CONFIGURED (R101, R102; log 32). -/
def Obligations.SealedGroupRetires : Prop :=
  (∀ (s : State) (g : Nat) (grp : Group) (position : Nat),
     (s.engine.context.readFailed = true → ∃ t, s.sealReads g grp position = t ∧
       t.engine.context = PositionContext.empty ∧ t.agenda = .advance :: s.agenda ∧
       t.memPort = s.memPort ∧ t.map = s.map ∧
       t.groups = (s.failParity g position
         ((List.range grp.parityCount).map (fun j => grp.dataCount + j))).groups) ∧
     (s.engine.context.readFailed = false → 1 ≤ grp.parityCount →
       s.sealReads g grp position = { s with engine := { s.engine with context := { s.engine.context with
         writing := true
         due := (List.range grp.parityCount).map (fun j =>
           { member := grp.dataCount + j
             op := .writeSector (paritySector j (s.engine.context.sectors grp.dataCount)) }) } } })) ∧
  (∀ (s : State) (g position : Nat) (failed : Positions) (grp : Group), s.group g = some grp →
     ∃ grp', (s.failParity g position failed).group g = some grp' ∧
       grp'.members.length = grp.members.length ∧
       ∀ (i : Nat) (m m' : Member), grp.members[i]? = some m → grp'.members[i]? = some m' →
         ∀ q, q ∈ m'.failed ↔ q ∈ m.failed ∨ (i ∈ failed ∧ q = position)) ∧
  (∀ (s : State) (g position : Nat) (grp : Group), s.engine.state = .running →
     s.engine.service = some (g, .seal) → s.engine.cursor = some position → s.group g = some grp →
     s.sectors ≤ position + 1 →
     s.advance = { s with
       engine := { s.engine with
         state := .idle, service := none, cursor := none, context := PositionContext.empty }
       agenda := .retire g :: .takeJob :: s.agenda }) ∧
  (∀ (s : State) (g : Nat) (grp : Group), s.configured = true → s.group g = some grp → grp.role = .record →
     grp.state ≠ .retiring → (∀ m ∈ grp.members, (s.frame m.slot).parityOk = true) →
     (grp.members.map (·.slot)).Nodup → (∀ t ∈ s.agenda, t.presents = false) →
     let t := s.retire g
     ∃ grp' marked, t.group g = some grp' ∧ grp'.state = .retiring ∧
       ((∀ m ∈ grp.members, m.failed = []) → grp'.outcome = some .sealed) ∧
       ((∃ m ∈ grp.members, m.failed ≠ []) → grp'.outcome = some .sealedDegraded) ∧
       grp'.counts = grp.counts ∧ grp'.beyond = grp.beyond ∧ grp'.members = grp.members ∧
       (∀ positions : List Nat, positions.Nodup →
         (∀ q, q ∈ positions ↔ ∃ m ∈ grp.members, q ∈ m.failed) →
         grp'.statusCounts = [0, 0, 0,
           min (grp.members.filter (fun m => (t.frame m.slot).state == .lost)).length 4095,
           0, 0, 0, min positions.length 4095]) ∧
       (∀ m ∈ grp.members,
         t.frame m.slot =
           if (s.frame m.slot).state = .quarantined then { s.frame m.slot with owner := none }
           else if m.failed = [] then { s.frame m.slot with state := .sealed, extent := [], owner := none }
           else { s.frame m.slot with
             state := .lost, owner := none
             extent := m.failed.foldl (fun ext q => Extent.insert s.sectors ext { first := q, count := 1 }) [] }) ∧
       (∀ k, k ∉ grp.members.map (·.slot) → t.frame k = s.frame k) ∧
       (∀ j, j ≠ g → t.group j = s.group j) ∧
       (∀ k, k ∈ marked ↔ ∃ h ∈ s.holds, h.waitsOn = .group g ∧ h.tag = k) ∧
       t.agenda = .releasePass marked :: .statusWrite g :: s.agenda ∧
       t.holds = s.holds ∧ t.conceal = s.conceal ∧ t.engine = s.engine ∧ t.port = s.port ∧
       t.channels = s.channels ∧ t.control = s.control ∧ t.memPort = s.memPort) ∧
  (∀ (s : State) (g : Nat) (grp : Group) (o : GroupOutcome), s.group g = some grp → grp.outcome = some o →
     (s.configured = true → s.statusWrite g = { s with memPort := { s.memPort with
       serviceList := s.memPort.serviceList ++
         [{ ref := .status g grp.serial, kind := .write, addr := grp.planAddress, length := 1
            beats := [statusBeat o .none grp.rounds grp.statusCounts] }] } }) ∧
     (s.configured = false → s.statusWrite g = s))

/-- A RESTORE group that retires: a member with an empty extent VERIFIED, or REPAIRED if its damage mark is set; a
damaged data member whose extent Concealment Table entries cover CONCEALED; any other damaged member LOST; a
QUARANTINED member left so; the owner dropped, everything else of an entry kept. The outcome is the first that
applies of FAILED, PATCHED, INTACT and RESTORED; concealed and lost are counted anew, the other counts stand, and the
deadlines are absent. What waits on the group is released and its status write follows (R30, R34, R69, R132, R133).
-/
def Obligations.RestoredGroupRetires : Prop :=
  ∀ (s : State) (g : Nat) (grp : Group), s.configured = true → s.group g = some grp → grp.role = .restore →
    grp.state ≠ .retiring → (∀ m ∈ grp.members, (s.frame m.slot).parityOk = true) →
    (grp.members.map (·.slot)).Nodup → (∀ t ∈ s.agenda, t.presents = false) →
    let covered := fun (m : Member) => ∀ q, (s.frame m.slot).extent.holds q = true →
      ∃ e ∈ s.conceal.table, e.target = m.slot ∧ e.range.holds q = true
    let t := s.retire g
    let final := fun (m : Member) => (t.frame m.slot).state
    ∃ grp' marked, t.group g = some grp' ∧ grp'.state = .retiring ∧ grp'.gatherDeadline = none ∧
      grp'.rereadDeadline = none ∧ grp'.rounds = grp.rounds ∧ grp'.beyond = grp.beyond ∧
      grp'.members = grp.members ∧
      (∀ m ∈ grp.members,
        ((s.frame m.slot).state = .quarantined →
          t.frame m.slot = { s.frame m.slot with owner := none }) ∧
        ((s.frame m.slot).state ≠ .quarantined → (s.frame m.slot).extent = [] →
          t.frame m.slot = { s.frame m.slot with
            state := if m.damageMark then .repaired else .verified, owner := none }) ∧
        ((s.frame m.slot).state ≠ .quarantined → (s.frame m.slot).extent ≠ [] → m.kind = .data → covered m →
          t.frame m.slot = { s.frame m.slot with state := .concealed, owner := none }) ∧
        ((s.frame m.slot).state ≠ .quarantined → (s.frame m.slot).extent ≠ [] →
          ¬ (m.kind = .data ∧ covered m) →
          t.frame m.slot = { s.frame m.slot with state := .lost, owner := none })) ∧
      (∀ k, k ∉ grp.members.map (·.slot) → t.frame k = s.frame k) ∧
      ((∃ m ∈ grp.members, m.kind = .data ∧ (final m = .lost ∨ final m = .quarantined)) →
        grp'.outcome = some .failed) ∧
      ((∀ m ∈ grp.members, m.kind = .data → final m ≠ .lost ∧ final m ≠ .quarantined) →
        (∃ m ∈ grp.members, m.kind = .data ∧ final m = .concealed) → grp'.outcome = some .patched) ∧
      ((∀ m ∈ grp.members, final m = .verified) → grp'.outcome = some .intact) ∧
      ((∀ m ∈ grp.members, m.kind = .data → final m = .verified ∨ final m = .repaired) →
        (∃ m ∈ grp.members, final m ≠ .verified) → grp'.outcome = some .restored) ∧
      grp'.counts = { grp.counts with
        concealed := (grp.members.filter (fun m => m.kind == .data && final m == .concealed)).length
        lost := (grp.members.filter (fun m => final m == .lost || final m == .quarantined)).length } ∧
      (∀ j, j ≠ g → t.group j = s.group j) ∧
      (∀ k, k ∈ marked ↔ ∃ h ∈ s.holds, h.waitsOn = .group g ∧ h.tag = k) ∧
      t.agenda = .releasePass marked :: .statusWrite g :: s.agenda ∧
      t.conceal = { s.conceal with work := s.conceal.work.filter (fun w => decide (w.group ≠ g)) } ∧
      t.holds = s.holds ∧ t.engine = s.engine ∧ t.port = s.port ∧ t.channels = s.channels ∧
      t.control = s.control ∧ t.memPort = s.memPort

/-! ## Concealment (R163 to R178) -/

/-- A group enters CONCEALING: its state, the fences, and its damaged data members decided one after another in
member order in that step, each against what the decisions before it left; then the test whether its concealment is
complete (R61, R131, R165, R171). The source of a member: none under POISON, FILL under FILL; under HOLD_PREVIOUS the
lowest slot that qualifies for the nearest earlier frame within the reach, or none (R166, R167). The decision: a
QUARANTINED member and one without source are refused with no effect; one whose ranges find room in the table gets an
entry for each range and a CONCEALED tail for each position, in order; one that does not fit gets none, and
CONCEAL_FULL is taken with the ranges needed and the entries free (R165, R168, R169, R170). -/
def Obligations.ConcealmentIsDecided : Prop :=
  (∀ (s : State) (g : Nat) (grp : Group) (terms : RestoreTerms), s.configured = true → s.group g = some grp →
     grp.terms = some terms →
     let entered : Group := { grp with state := .concealing, checkOk := true }
     let u := (s.putGroup g entered).fenceSlots grp.slots
     let damaged := (List.range grp.members.length).filter (fun i =>
       (grp.members[i]?).any (fun m => m.kind == .data && !(s.extentOf m.slot).isEmpty))
     s.enterConcealing g =
       (damaged.foldl (State.decideMember g entered terms) { u with conceal := { u.conceal with
         work := u.conceal.work ++
           [{ group := g, serial := grp.serial, pending := [], outstanding := 0 }] } }).push
         [.concealed g]) ∧
  (∀ (s : State) (grp : Group) (terms : RestoreTerms) (place : Nat),
     (terms.policy = .poison → s.chooseSource grp terms place = (s, none)) ∧
     (terms.policy = .fill → s.chooseSource grp terms place = (s, some .fill)) ∧
     (terms.policy = .holdPrevious → Table.wf s.map.entries = true →
       (∀ e ∈ s.map.entries, e.2.parityOk = true) →
       let serves := fun (k j : Nat) =>
         j < (s.control.config.map (·.slotCount)).getD 0 ∧ (s.frame j).channel = some grp.channel ∧
         (s.frame j).kind = some .data ∧
         (s.frame j).frameNumber = some (grp.expected place - BitVec.ofNat 32 k) ∧
         ((s.frame j).state = .verified ∨ (s.frame j).state = .repaired ∨
           ((s.frame j).state ≠ .quarantined ∧ (s.frame j).extent = [] ∧
             ∃ m ∈ grp.members, m.slot = j ∧ m.kind = .data))
       (∀ k j, 1 ≤ k → k ≤ terms.reach → serves k j →
         (∀ k' j', 1 ≤ k' → k' < k → ¬ serves k' j') → (∀ j', j' < j → ¬ serves k j') →
         s.chooseSource grp terms place = (s, some (.slot j))) ∧
       ((∀ k j, 1 ≤ k → k ≤ terms.reach → ¬ serves k j) →
         s.chooseSource grp terms place = (s, none)))) ∧
  (∀ (s : State) (g : Nat) (grp : Group) (terms : RestoreTerms) (place : Nat) (m : Member),
     grp.members[place]? = some m → (s.frame m.slot).parityOk = true →
     let ext := (s.frame m.slot).extent
     let room := 64 - s.conceal.table.length
     ((s.frame m.slot).state = .quarantined → State.decideMember g grp terms s place = s) ∧
     ((s.frame m.slot).state ≠ .quarantined → s.chooseSource grp terms place = (s, none) →
       State.decideMember g grp terms s place = s) ∧
     (∀ src, (s.frame m.slot).state ≠ .quarantined → s.chooseSource grp terms place = (s, some src) →
       (ext.length ≤ room → State.decideMember g grp terms s place = { s with conceal := {
         table := s.conceal.table ++ ext.map (fun rg =>
           { target := m.slot, range := rg, source := src, checkOk := true })
         work := s.conceal.work.map (fun w =>
           if w.group = g then
             { w with pending := w.pending ++ ext.positions.map (fun q =>
               { slot := m.slot, position := q, frameNumber := grp.expected place }) }
           else w) } }) ∧
       (room < ext.length → ∃ t, State.decideMember g grp terms s place = t ∧ t.conceal = s.conceal ∧
         t.map = s.map ∧ t.groups = s.groups ∧ t.holds = s.holds ∧ t.port = s.port ∧
         t.engine = s.engine ∧ t.channels = s.channels ∧
         s.control.contained.took t.control.contained
           { kind := .concealFull, channel := some grp.channel, groupNumber := some grp.groupNumber
             slot := some m.slot, sector := none, detail := some (.room ext.length room) })))

/-- A claim, a stale mark or a search's end on slots ends every concealment that involves them. The entries whose
target is one of them go, silently; a target whose entries name one of them as source loses all its entries, and if
it is CONCEALED it becomes LOST with its other fields kept, while a member of a group in CONCEALING or a QUARANTINED
target keeps its state; the tails of both not yet presented are never written; one WITHDRAWN report is posted for
each such target, in ascending slot number, with its channel, group number and expected frame unless it is
QUARANTINED, and its ranges ascending; and every group with nothing left to write or await is tested for the end of
its concealment (R26, R32, R36, R173 to R176). A failing entry stops the scan, nothing is withdrawn, and
CONCEAL_TABLE_PARITY, with the entry's target as slot, makes the part FAULTED (R164, R199). That the scan reads the
whole table in storage order, so that the entries before the failing one are removed and stay removed and those
behind it stand, is the model's choice (log 17). -/
def Obligations.EndedConcealmentsLeaveTheTable : Prop :=
  (∀ (s : State) (slots : List Nat), (∀ e ∈ s.conceal.table, e.checkOk = true) →
     (∀ k, s.WithdrawnBy slots k → (s.frame k).parityOk = true) →
     let t := s.endConcealments slots
     (∀ e, e ∈ t.conceal.table ↔ e ∈ s.conceal.table ∧ e.target ∉ slots ∧ ¬ s.WithdrawnBy slots e.target) ∧
     (∀ k, s.WithdrawnBy slots k → (s.frame k).state = .concealed →
       t.frame k = { s.frame k with state := .lost }) ∧
     (∀ k, (s.WithdrawnBy slots k → (s.frame k).state ≠ .concealed) → t.frame k = s.frame k) ∧
     t.conceal.work.length = s.conceal.work.length ∧
     (∀ (i : Nat) (w w' : TailWork), s.conceal.work[i]? = some w → t.conceal.work[i]? = some w' →
       w'.group = w.group ∧ w'.serial = w.serial ∧ w'.outstanding = w.outstanding ∧
       w'.pending.Sublist w.pending ∧
       ∀ p, p ∈ w'.pending ↔ p ∈ w.pending ∧ p.slot ∉ slots ∧ ¬ s.WithdrawnBy slots p.slot) ∧
     (∀ w ∈ t.conceal.work, w.pending = [] → w.outstanding = 0 → Task.concealed w.group ∈ t.agenda) ∧
     s.agenda <:+ t.agenda ∧
     (∀ targets : List Nat, targets.Pairwise (· < ·) → (∀ k, k ∈ targets ↔ s.WithdrawnBy slots k) →
       s.RingRoomFor targets.length → ∃ ranges : Nat → List SectorRange,
       t.control.posts = s.control.posts ++ targets.map (fun k =>
         if (s.frame k).state = .quarantined then .withdrawn k (ranges k) none none none
         else .withdrawn k (ranges k) (s.frame k).channel (s.frame k).groupNumber (s.frame k).expected) ∧
       ∀ k ∈ targets,
         (ranges k).Perm ((s.conceal.table.filter (fun e => decide (e.target = k))).map (·.range)) ∧
         (ranges k).Pairwise (fun a b => a.first ≤ b.first)) ∧
     ((∀ k, ¬ s.WithdrawnBy slots k) → t.control = s.control ∧ t.memPort = s.memPort) ∧
     t.groups = s.groups ∧ t.holds = s.holds ∧ t.engine = s.engine ∧ t.port = s.port ∧
     t.channels = s.channels) ∧
  (∀ (s : State) (slots : List Nat) (before after : List ConcealEntry) (e : ConcealEntry),
     s.control.part = .configured → s.conceal.table = before ++ e :: after →
     (∀ f ∈ before, f.checkOk = true) → e.checkOk = false →
     let t := s.endConcealments slots
     t.conceal.table = before.filter (fun f => decide (f.target ∉ slots)) ++ e :: after ∧
     (∀ k, t.frame k = s.frame k) ∧ t.control.part = .faulted ∧ t.control.entering = true ∧
     s.control.uncontained.took t.control.uncontained
       { kind := .concealTableParity, channel := none, groupNumber := none, slot := some e.target
         sector := none, detail := none })

/-- The Concealment Unit presents the head of the first pending list, in the order in which the groups entered
CONCEALING, whose slot has no fenced write: one beat with bytes 0 to 7 enabled at the position's tail, and the write
is outstanding; a list that is empty or whose head waits for a fence is passed over, and (R7, R61, R170). That the
command changes nothing where there is no other is the model's choice (log 4). The answer to a CONCEALED tail write
lowers its group's outstanding count; on ERROR in CONFIGURED SERVICE_WRITE_ERROR is taken with the channel, group
number, slot and position; while the group has other tail work nothing else changes (R171). The answer that leaves it
none completes the concealment: the group is RETIRING with its outcome, its tail work forgotten and its status write
presented (R101, R132, R171). -/
def Obligations.ConcealedTailsArePresentedAndAnswered : Prop :=
  (∀ (s : State) (w : TailWork) (p : PendingTail) (rest : List PendingTail) (before after : List TailWork)
     (grp : Group) (c : Configuration), s.agenda = [] → s.control.part = .configured →
     s.control.config = some c → s.conceal.work = before ++ w :: after →
     (∀ v ∈ before, ∀ q others, v.pending = q :: others → s.fenced q.slot = true) →
     w.pending = p :: rest → s.fenced p.slot = false → s.group w.group = some grp →
     exec .concealedTailPresent s = .next (State.driveInterrupt { s with
       conceal := { s.conceal with work := s.conceal.work.map (fun v =>
         if v.group = w.group ∧ v.serial = w.serial then
           { v with pending := v.pending.tail, outstanding := v.outstanding + 1 }
         else v) }
       memPort := { s.memPort with serviceList := s.memPort.serviceList ++
         [{ ref := .concealedTail w.group w.serial grp.channel grp.groupNumber p.slot p.position s.control.era
            kind := .write
            addr := c.arenaBase + p.slot * ((c.sectors + 1) * 4096) + c.sectors * 4096 + p.position * 32
            length := 1, beats := [tailBeat p.frameNumber p.position .concealed] }] } })) ∧
  (∀ s : State, s.agenda = [] →
     (∀ v ∈ s.conceal.work, ∀ q others, v.pending = q :: others → s.fenced q.slot = true) →
     exec .concealedTailPresent s = .next (State.driveInterrupt s)) ∧
  (∀ (s : State) (tag : Fin 32) (status : MemStatus) (g serial : Nat) (c : Fin 8) (gn : Word32)
     (slot position : Nat), s.agenda = [] →
     s.tagRef tag = some (.concealedTail g serial c gn slot position s.control.era) →
     s.control.part = .configured →
     (∃ w ∈ s.conceal.work, w.group = g ∧
       (w.pending ≠ [] ∨ (if w.serial = serial then 1 else 0) < w.outstanding)) →
     ∃ t, exec (.concealedTailWriteAnswer tag status) s = .next t ∧ s.Settled t ∧
       t.conceal = { s.conceal with work := s.conceal.work.map (fun w =>
         if w.group = g ∧ w.serial = serial then { w with outstanding := w.outstanding - 1 } else w) } ∧
       t.map = s.map ∧ t.groups = s.groups ∧ t.holds = s.holds ∧ t.port = s.port ∧ t.engine = s.engine ∧
       t.channels = s.channels ∧ t.memPort.tags = Table.remove tag.val s.memPort.tags ∧
       (status = .okay → t.control = s.control) ∧
       (status = .error → s.control.contained.took t.control.contained
         { kind := .serviceWriteError, channel := some c, groupNumber := some gn, slot := some slot,
           sector := some position, detail := none })) ∧
  (∀ (s : State) (tag : Fin 32) (status : MemStatus) (g serial : Nat) (c : Fin 8) (gn : Word32)
     (slot position : Nat) (grp : Group), s.agenda = [] →
     s.tagRef tag = some (.concealedTail g serial c gn slot position s.control.era) →
     s.control.part = .configured → s.group g = some grp → grp.state = .concealing → grp.role = .restore →
     (∀ w ∈ s.conceal.work, w.group = g → w.serial = serial ∧ w.pending = [] ∧ w.outstanding ≤ 1) →
     (∀ m ∈ grp.members, (s.frame m.slot).parityOk = true) → (grp.members.map (·.slot)).Nodup →
     (∀ h ∈ s.holds, h.waitsOn ≠ .group g) →
     ∃ t grp' o, exec (.concealedTailWriteAnswer tag status) s = .next t ∧ s.Settled t ∧
       t.group g = some grp' ∧ grp'.state = .retiring ∧ grp'.outcome = some o ∧
       (∀ w ∈ t.conceal.work, w.group ≠ g) ∧ t.conceal.table = s.conceal.table ∧ t.holds = s.holds ∧
       (∃ r ∈ t.memPort.serviceList, r.ref = .status g grp.serial ∧ r.kind = .write ∧
         r.addr = grp.planAddress ∧ r.beats = [statusBeat o .none grp'.rounds grp'.statusCounts]) ∧
       (∀ j, j ≠ g → t.group j = s.group j) ∧ t.port = s.port ∧ t.engine = s.engine ∧
       t.channels = s.channels)

/-! ## The header and reports (R195 to R202) -/

/-- The checks of a header, in their order (R196). A load that fails at its answer (FAULTED or a busy channel: BUSY;
ERROR: READ_ERROR; a failed check: its result) or whose answer a warm clear discards changes load pending and the
load result and, but for the mirror and the tag, nothing else (R195). An answer that comes in a fault entry in which
a clear was noted finds the part FAULTED, and is BUSY: the model's choice (log 42). -/
def Obligations.HeaderChecksAndFailedLoads : Prop :=
  (∀ (h : Header) (base : Nat),
     let arenaEnd := h.arenaBase + h.slotCount * ((h.sectors + 1) * 4096)
     let ringEnd := h.ringBase + h.ringSize * 32
     let geometry := h.sectors < 8 ∨ 128 < h.sectors ∨ h.slotCount = 0 ∨ 2048 < h.slotCount
     let arena := h.arenaBase % 1048576 ≠ 0 ∨ 2 ^ 36 < arenaEnd ∨
       (h.arenaBase < base + 65536 ∧ base < arenaEnd)
     let ring := h.ringSize ∉ [16, 32, 64, 128, 256, 512, 1024] ∨ h.ringBase % 32 ≠ 0 ∨ 2 ^ 36 < ringEnd ∨
       (h.ringBase < base + 65536 ∧ base < ringEnd) ∨ (h.ringBase < arenaEnd ∧ h.arenaBase < ringEnd)
     let field := 1 < h.mode ∨ h.tokenCeiling = 0 ∨ h.refillAmount = 0 ∨ 4096 < h.refillAmount ∨
       h.refillPeriod = 0 ∨ 1024 < h.refillPeriod ∨ h.holdLimit = 0
     (geometry → h.validate base = .badGeometry) ∧
     (¬ geometry → arena → h.validate base = .badArena) ∧
     (¬ geometry → ¬ arena → ring → h.validate base = .badRing) ∧
     (¬ geometry → ¬ arena → ¬ ring → field → h.validate base = .badField) ∧
     (¬ geometry → ¬ arena → ¬ ring → ¬ field → h.validate base = .ok)) ∧
  (∀ (s : State) (tag : Fin 32) (status : MemStatus) (beats : List Beat) (discarded : Bool)
     (result : LoadResult), s.agenda = [] → s.tagRef tag = some .header →
     s.control.loadPending = some discarded →
     let busy := s.control.part = .faulted ∨
       (s.control.part = .configured ∧ ∃ c : Fin 8, (s.channel c).state ≠ .disabled)
     ((discarded = true ∧ result = s.control.loadResult) ∨
      (discarded = false ∧ busy ∧ result = .busy) ∨
      (discarded = false ∧ ¬ busy ∧ status = .error ∧ result = .readError) ∨
      (discarded = false ∧ ¬ busy ∧ status = .okay ∧
        result = (Header.ofBeats beats).validate s.controlBase ∧ result ≠ .ok)) →
     ∃ t, exec (.headerReadAnswer tag status beats) s = .next t ∧ s.Settled t ∧ s.SameFrames t ∧
       t.control = { s.control with loadPending := none, loadResult := result } ∧
       t.memPort.tags = Table.remove tag.val s.memPort.tags ∧
       s.SamePort { t with memPort := { t.memPort with tags := s.memPort.tags } } ∧
       t.port = s.port ∧ t.engine = s.engine ∧ t.channels = s.channels)

/-- A header answered OKAY that passes every check is the configuration from then on: the Frame Map and the
Concealment Table empty, the indices 0, the post list empty, the flags cleared, the token counter at the ceiling, the
last-served class ENGINE, the part CONFIGURED with load result OK; the Fault Log is kept (R197). Every held request
is released in one pass, in queue order, and classified against the new configuration, where every slot is FREE: it
passes (R17, R52, R53, R68, R77; here the queue stands in the order of acceptance, log 12). That the report write
that is out is let go, so that a report posted after the load does not wait for its answer, is the model's choice
(log 36), and the era counter by which that answer is known is its own (log 13). -/
def Obligations.GoodHeaderConfigures : Prop :=
  ∀ (s : State) (tag : Fin 32) (beats : List Beat), s.agenda = [] → s.tagRef tag = some .header →
    s.control.loadPending = some false → (∀ c : Fin 8, (s.channel c).state = .disabled) →
    (s.control.part = .blank ∨ s.control.part = .configured) → s.holds.length ≤ 16 →
    (∀ h ∈ s.holds, ∃ a, s.accepted h.tag = some a ∧ a.triggers = []) →
    s.holds.Pairwise (fun h f => ∀ a b, s.accepted h.tag = some a → s.accepted f.tag = some b →
      a.seq < b.seq) →
    (Header.ofBeats beats).validate s.controlBase = .ok →
    let c := (Header.ofBeats beats).configuration
    ∃ t, exec (.headerReadAnswer tag .okay beats) s = .next t ∧ s.Settled t ∧
      t.control = { s.control with
        config := some c, part := .configured, loadResult := .ok, loadPending := none
        writeIndex := 0, taken := 0, posts := [], reportOut := false, overflow := false
        takenRefused := false, ringEra := s.control.ringEra + 1 } ∧
      t.map = { entries := [], pendingSearch := [], search := none } ∧
      t.conceal = { table := [], work := [] } ∧
      t.engine = { s.engine with tokens := c.tokenCeiling, nextRefill := some (s.time + c.refillPeriod) } ∧
      t.memPort.lastServed = .engine ∧ t.memPort.tags = Table.remove tag.val s.memPort.tags ∧
      t.memPort.passList = s.memPort.passList ++ s.holds.filterMap (fun h => (s.accepted h.tag).map (fun a =>
        { ref := .pass h.tag, kind := a.kind, addr := a.addr, length := a.length, beats := a.beats })) ∧
      (∀ h ∈ s.holds, ∀ a, s.accepted h.tag = some a →
        t.accepted h.tag = some { a with disposition := .waitingIssue, fence := none }) ∧
      (∀ k, (∀ h ∈ s.holds, h.tag ≠ k) → t.accepted k = s.accepted k) ∧
      t.port.sent = s.port.sent ∧ t.port.presented = s.port.presented ∧
      t.port.nextSeq = s.port.nextSeq ∧ t.holds = [] ∧
      t.memPort.engineList = s.memPort.engineList ∧ t.groups = s.groups ∧ t.channels = s.channels

/-- A posted report is discarded in BLANK and CLEARING and while no configuration is held. When write index plus post
list less taken copy, modulo the ring size, is ring size − 1, it is discarded too, the overflow flag set and
RING_OVERFLOW taken with the report's channel and kind. Else it joins the tail of the post list, and the head of the
list is presented as a one-beat write of all 32 bytes at ring base + write index × 32 unless such a write is out
already (R200). -/
def Obligations.ReportIsPostedOrDiscarded : Prop :=
  ∀ (s : State) (r : Report),
    let t := s.post r
    ((s.control.part = .blank ∨ s.control.part = .clearing ∨ s.control.config = none) → t = s) ∧
    (∀ c, (s.control.part = .configured ∨ s.control.part = .faulted) → s.control.config = some c →
      let full := (s.control.writeIndex + s.control.posts.length + c.ringSize - s.control.taken) % c.ringSize =
        c.ringSize - 1
      (full → t.control.posts = s.control.posts ∧ t.control.overflow = true ∧
        t.control.writeIndex = s.control.writeIndex ∧ s.SamePort t ∧
        s.control.contained.took t.control.contained
          { kind := .ringOverflow, channel := r.channel, groupNumber := none, slot := none, sector := none
            detail := some (.report r.kind) }) ∧
      (¬ full → t.control = { s.control with posts := s.control.posts ++ [r], reportOut := true } ∧
        (s.control.reportOut = true → t.memPort = s.memPort) ∧
        (s.control.reportOut = false → ∀ head rest, s.control.posts ++ [r] = head :: rest →
          t.memPort = { s.memPort with serviceList := s.memPort.serviceList ++
            [{ ref := .report s.control.ringEra, kind := .write
               addr := c.ringBase + s.control.writeIndex * 32, length := 1
               beats := [{ data := head.beat, enables := BitVec.allOnes 32 }] }] }))) ∧
    t.port = s.port ∧ t.map = s.map ∧ t.groups = s.groups ∧ t.holds = s.holds ∧ t.engine = s.engine ∧
    t.conceal = s.conceal ∧ t.channels = s.channels ∧ t.agenda = s.agenda

/-- The answer to a report write: the head leaves the post list, OKAY or ERROR; on OKAY the write index advances by
one modulo the ring size; on ERROR it stays and SERVICE_WRITE_ERROR is taken. An answer of before a warm clear or a
load moves nothing (R197, R198, R200). -/
def Obligations.ReportAnswerAdvancesTheIndex : Prop :=
  ∀ (s : State) (tag : Fin 32) (status : MemStatus) (era : Nat), s.agenda = [] →
    s.tagRef tag = some (.report era) →
    ∃ t, exec (.reportWriteAnswer tag status) s = .next t ∧ s.Settled t ∧ s.SameFrames t ∧
      t.memPort.tags = Table.remove tag.val s.memPort.tags ∧
      t.port = s.port ∧ t.engine = s.engine ∧ t.channels = s.channels ∧
      (era ≠ s.control.ringEra → t.control = s.control) ∧
      (∀ r rest c, era = s.control.ringEra → s.control.posts = r :: rest → s.control.config = some c →
        (status = .okay →
          t.control = { s.control with
            posts := rest, writeIndex := (s.control.writeIndex + 1) % c.ringSize
            reportOut := decide (rest ≠ []) }) ∧
        (status = .error → t.control.writeIndex = s.control.writeIndex ∧
          (∃ later, t.control.posts = rest ++ later ∧ (s.control.contained.first ≠ none → later = [])) ∧
          s.control.contained.took t.control.contained
            { kind := .serviceWriteError, channel := none, groupNumber := none, slot := none,
              sector := none, detail := some (.report r.kind) }))

/-! ## The Repair Engine (R137 to R162) -/

/-- A job joins the queue at its tail, unpromoted. A promoted job moves ahead of every unpromoted one and behind
every one promoted before it, the others keeping their order; an offer for a group with no unpromoted job waiting
changes nothing (R67, R138, R139). An IDLE engine takes the head of the queue into service: RUNNING, cursor 0, the
position context empty, and takes up position 0; any other engine, or an empty queue, is left as it is (R140). Inside
an ABORT it takes none until every live group of the channel is abandoned, the model's choice (log 31). A RUNNING
engine that has finished a position below N − 1, of whatever job, advances its cursor by one and takes up the next
(R145). -/
def Obligations.JobsAreQueuedPromotedAndTaken : Prop :=
  (∀ (s : State) (g : Nat) (k : JobKind), (s.queueJob g k).engine = { s.engine with
     queue := s.engine.queue ++ [{ group := g, kind := k, promoted := false }] } ∧
     .takeJob ∈ (s.queueJob g k).agenda) ∧
  (∀ (g : Nat) (q : List Job), (∀ j ∈ q, j.group = g → j.promoted = true) → promoteJob g q = q) ∧
  (∀ (g : Nat) (first before after : List Job) (j : Job), j.group = g → j.promoted = false →
     (∀ i ∈ first, i.promoted = true ∧ i.group ≠ g) →
     (∀ i ∈ before ++ after, i.promoted = false ∧ i.group ≠ g) →
     promoteJob g (first ++ before ++ j :: after) =
       first ++ { j with promoted := true } :: (before ++ after)) ∧
  (∀ (s : State) (j : Job) (rest : List Job), s.aborting = false → s.engine.state = .idle →
     s.engine.queue = j :: rest → s.takeJob = { s with
       engine := { s.engine with
         state := .running, queue := rest, service := some (j.group, j.kind), cursor := some 0
         context := PositionContext.empty }
       agenda := .takeUp :: s.agenda }) ∧
  (∀ s : State, s.aborting = false → s.engine.state ≠ .idle ∨ s.engine.queue = [] → s.takeJob = s) ∧
  (∀ (s : State) (before after : List Task) (g : Nat), s.agenda = before ++ .abandon g :: after →
     (∀ j, .abandon j ∉ after) →
     s.takeJob = { s with agenda := before ++ .abandon g :: .takeJob :: after }) ∧
  (∀ s : State, s.aborting = true ↔ ∃ g, .abandon g ∈ s.agenda) ∧
  (∀ (s : State) (g position : Nat) (k : JobKind), s.engine.state = .running →
     s.engine.service = some (g, k) → s.engine.cursor = some position → position + 1 < s.sectors →
     s.advance = { s with
       engine := { s.engine with cursor := some (position + 1) }, agenda := .takeUp :: s.agenda })

/-- The survivors of a position are the first D undamaged members in member order (R153). Taking up a REBUILD
position: undamaged, it is finished; with more than P members damaged it is counted beyond parity and finished; else
the survivors are to be read (R152). When the reads are answered, E(s) is taken again: not grown, every damaged
member is to be written, computed from the survivors read (R154); grown beyond P, it is counted beyond parity and
finished; else the survivors are chosen again, the sectors already read of them are kept and the others fall due
(R153). After position N − 1 the engine is IDLE, and the group enters CONCEALING if a data member has a non-empty
extent and retires otherwise, before the next job is taken (R130, R145, R158; the order: log 23). -/
def Obligations.SurvivorsAreChosenAndChosenAgain : Prop :=
  (∀ (grp : Group) (damaged : Positions),
     (survivors grp damaged).Pairwise (· < ·) ∧
     (∀ i ∈ survivors grp damaged, i < grp.members.length ∧ i ∉ damaged) ∧
     (survivors grp damaged).length ≤ grp.dataCount ∧
     (∀ i, i < grp.members.length → i ∉ damaged → i ∉ survivors grp damaged →
       (survivors grp damaged).length = grp.dataCount ∧ ∀ k ∈ survivors grp damaged, k < i)) ∧
  (∀ (s : State) (g position : Nat) (grp : Group), s.engine.state = .running →
     s.engine.service = some (g, .rebuild) → s.engine.cursor = some position → s.group g = some grp →
     (∀ m ∈ grp.members, (s.frame m.slot).parityOk = true) →
     let damaged := s.damagedSet grp position
     (damaged ≠ [] → damaged.length ≤ grp.parityCount →
       s.takeUp = { s with engine := { s.engine with context := { PositionContext.empty with
         damaged := damaged, chosen := survivors grp damaged
         due := (survivors grp damaged).map (fun m => { member := m, op := .readSector }) } } }) ∧
     (damaged = [] ∨ grp.parityCount < damaged.length → ∃ grp',
       s.takeUp.engine = { s.engine with context := PositionContext.empty } ∧
       .advance ∈ s.takeUp.agenda ∧ s.takeUp.group g = some grp' ∧
       (∀ q, q ∈ grp'.beyond ↔ q ∈ grp.beyond ∨ (damaged ≠ [] ∧ q = position)) ∧
       s.takeUp.memPort = s.memPort)) ∧
  (∀ (s : State) (g position : Nat) (grp : Group), s.group g = some grp →
     (∀ m ∈ grp.members, (s.frame m.slot).parityOk = true) →
     let now := s.damagedSet grp position
     let c := s.engine.context
     let writes := fun (received : List (Nat × Sector)) (chosen : Positions) =>
       now.map (fun m => ({ member := m, op := .writeSector (memberSector grp.dataCount
         (received.filter (fun x => chosen.contains x.1)) m) } : DueRequest))
     ((∀ m ∈ now, m ∈ c.damaged) → s.rebuildReads g grp position = { s with engine := { s.engine with
       context := { c with due := writes c.received c.chosen, writing := true } } }) ∧
     ((∃ m ∈ now, m ∉ c.damaged) → grp.parityCount < now.length → ∃ grp',
       (s.rebuildReads g grp position).engine = { s.engine with context := PositionContext.empty } ∧
       .advance ∈ (s.rebuildReads g grp position).agenda ∧
       (s.rebuildReads g grp position).group g = some grp' ∧
       ∀ q, q ∈ grp'.beyond ↔ q ∈ grp.beyond ∨ q = position) ∧
     ((∃ m ∈ now, m ∉ c.damaged) → now.length ≤ grp.parityCount →
       let chosen := survivors grp now
       let kept := c.received.filter (fun x => chosen.contains x.1)
       let missing := chosen.filter (fun m => (kept.lookup m).isNone)
       (missing ≠ [] → s.rebuildReads g grp position = { s with engine := { s.engine with
         context := { c with
           damaged := now, chosen := chosen, received := kept, readFailed := false
           due := missing.map (fun m => { member := m, op := .readSector }) } } }) ∧
       (missing = [] → s.rebuildReads g grp position = { s with engine := { s.engine with
         context := { c with
           damaged := now, chosen := chosen, received := kept, readFailed := false
           due := writes kept chosen, writing := true } } }))) ∧
  (∀ (s : State) (g position : Nat) (grp : Group), s.engine.state = .running →
     s.engine.service = some (g, .rebuild) → s.engine.cursor = some position → s.group g = some grp →
     s.sectors ≤ position + 1 → (∀ m ∈ grp.members, (s.frame m.slot).parityOk = true) →
     let damaged := ∃ m ∈ grp.members, m.kind = .data ∧ s.extentOf m.slot ≠ []
     let idle : Engine := { s.engine with
       state := .idle, service := none, cursor := none, context := PositionContext.empty }
     (damaged → s.advance = { s with engine := idle, agenda := .conceal g :: .takeJob :: s.agenda }) ∧
     (¬ damaged → s.advance = { s with engine := idle, agenda := .retire g :: .takeJob :: s.agenda }))

/-- Taking up an AUDIT position: a damaged one is finished, an undamaged one has every member read (R148). The
columns of syndromes of a position: clean when all are zero; located when every nonzero one indicates the same
member; else unlocated. A clean position changes nothing; a located one puts the position into the member's extent,
sets its damage mark and raises silent found; an unlocated one is counted beyond parity; a position with a failed
read is judged no further (R149, R150). After position N − 1, if some member has a non-empty extent, the group is
RECONSTRUCTING and the engine stays RUNNING with a REBUILD of it in service at position 0, not requeued; if every
extent is empty, the engine is IDLE and the group retires before the next job is taken (R130, R145, R151; the order:
log 23). -/
def Obligations.AuditedPositionIsJudged : Prop :=
  (∀ (s : State) (g position : Nat) (grp : Group), s.engine.state = .running →
     s.engine.service = some (g, .audit) → s.engine.cursor = some position → s.group g = some grp →
     (∀ m ∈ grp.members, (s.frame m.slot).parityOk = true) →
     (s.damagedSet grp position = [] → s.takeUp = { s with engine := { s.engine with
       context := { PositionContext.empty with
         chosen := List.range grp.members.length
         due := (List.range grp.members.length).map (fun m => { member := m, op := .readSector }) } } }) ∧
     (s.damagedSet grp position ≠ [] → s.takeUp = { s with
       engine := { s.engine with context := PositionContext.empty }, agenda := .advance :: s.agenda })) ∧
  (∀ (d p : Nat) (columns : List (List Byte)),
     let bad := fun (col : List Byte) => ∃ x ∈ col, x ≠ 0
     (auditColumns d p columns = .clean ↔ ∀ col ∈ columns, ¬ bad col) ∧
     (∀ m, auditColumns d p columns = .located m ↔ (∃ col ∈ columns, bad col) ∧
       ∀ col ∈ columns, bad col → columnIndicates d p col = some m) ∧
     (auditColumns d p columns = .unlocated ↔ (∃ col ∈ columns, bad col) ∧
       ∀ m, ∃ col ∈ columns, bad col ∧ columnIndicates d p col ≠ some m)) ∧
  (∀ (s : State) (g position : Nat) (grp : Group), s.group g = some grp →
     let result := auditSectors grp.dataCount grp.parityCount (s.engine.context.sectors grp.members.length)
     let t := s.auditReads g grp position
     t.engine = { s.engine with context := PositionContext.empty } ∧ t.agenda = .advance :: s.agenda ∧
     (s.engine.context.readFailed = true ∨ result = .clean → t.map = s.map ∧ t.groups = s.groups) ∧
     (∀ i m, s.engine.context.readFailed = false → result = .located i → grp.members[i]? = some m →
       (s.frame m.slot).parityOk = true → (s.frame m.slot).state ≠ .quarantined →
       (t.frame m.slot).extent =
         Extent.insert s.sectors (s.frame m.slot).extent { first := position, count := 1 } ∧
       (∀ k, k ≠ m.slot → t.frame k = s.frame k) ∧
       ∃ grp' m', t.group g = some grp' ∧ grp'.members[i]? = some m' ∧ m'.damageMark = true ∧
         grp'.counts = { grp.counts with silentFound := grp.counts.silentFound + 1 }) ∧
     (s.engine.context.readFailed = false → result = .unlocated → t.map = s.map ∧
       ∃ grp', t.group g = some grp' ∧ grp'.counts = grp.counts ∧ grp'.members = grp.members ∧
         ∀ q, q ∈ grp'.beyond ↔ q ∈ grp.beyond ∨ q = position) ∧
     t.memPort = s.memPort ∧ t.holds = s.holds ∧ t.conceal = s.conceal ∧ t.control = s.control) ∧
  (∀ (s : State) (g position : Nat) (grp : Group), s.engine.state = .running →
     s.engine.service = some (g, .audit) → s.engine.cursor = some position → s.group g = some grp →
     s.sectors ≤ position + 1 → (∀ m ∈ grp.members, (s.frame m.slot).parityOk = true) →
     let damaged := ∃ m ∈ grp.members, s.extentOf m.slot ≠ []
     (damaged → s.advance = { (s.putGroup g { grp with state := .reconstructing }) with
       engine := { s.engine with
         service := some (g, .rebuild), cursor := some 0, context := PositionContext.empty }
       agenda := .takeUp :: s.agenda }) ∧
     (¬ damaged → s.advance = { s with
       engine := { s.engine with
         state := .idle, service := none, cursor := none, context := PositionContext.empty }
       agenda := .retire g :: .takeJob :: s.agenda }))

/-- The engine issues its next due request when it is RUNNING with fewer than 8 requests in flight, a token and no
fenced write to the slot: a sector read or write costs one token and goes out as eight 16-beat bursts in ascending
order, each a read, or a write of its 16 beats of the sector with every byte enabled, a tail write as one beat that
costs none (R141, R143, R144). -/
def Obligations.EngineIssuesTheNextRequest : Prop :=
  ∀ (s : State) (d : DueRequest) (rest : List DueRequest) (g : Nat) (k : JobKind) (position : Nat)
    (c : Configuration) (grp : Group) (m : Member), s.agenda = [] →
    s.engine.context.due = d :: rest → s.engine.service = some (g, k) →
    s.engine.cursor = some position → s.control.config = some c → s.group g = some grp →
    grp.members[d.member]? = some m →
    let allowed := s.engine.state = .running ∧ s.engine.inFlight.length < 8 ∧ 1 ≤ s.engine.tokens ∧
      s.fenced m.slot = false
    ∃ t, exec .engineRequestIssue s = .next t ∧ s.Settled t ∧ s.SameFrames t ∧ t.port = s.port ∧
      t.channels = s.channels ∧ t.control = s.control ∧
      (¬ allowed → t.engine = s.engine ∧ t.memPort = s.memPort) ∧
      (allowed →
        t.engine = { s.engine with
          nextId := s.engine.nextId + 1
          tokens := s.engine.tokens - (if d.op = .writeTail then 0 else 1)
          context := { s.engine.context with due := rest }
          inFlight := s.engine.inFlight ++
            [{ id := s.engine.nextId, member := d.member, op := d.op, answered := [], failed := false }] } ∧
        ∃ bursts, t.memPort = { s.memPort with engineList := s.memPort.engineList ++ bursts } ∧
          (d.op ≠ .writeTail → bursts.length = 8 ∧ ∀ j b, bursts[j]? = some b →
            b.addr = c.slotStart m.slot + position * 4096 + j * 512 ∧ b.length = 16) ∧
          (d.op = .readSector → ∀ (j : Nat) (b : MemRequest), bursts[j]? = some b →
            b.ref = .engineRead s.engine.nextId j ∧ b.kind = .read ∧ b.beats = []) ∧
          (∀ data, d.op = .writeSector data → ∀ (j : Nat) (b : MemRequest), bursts[j]? = some b →
            b.ref = .engineWrite s.engine.nextId j ∧ b.kind = .write ∧
            b.beats = (List.range 16).map (fun i =>
              { data := data.getD (16 * j + i) 0, enables := BitVec.allOnes 32 })) ∧
          (d.op = .writeTail → bursts = [{
            ref := .engineTail s.engine.nextId, kind := .write
            addr := c.slotStart m.slot + c.sectors * 4096 + position * 32, length := 1
            beats := [tailBeat (grp.expected d.member) position .rebuilt] }]))

/-- A refill event raises the token counter by the refill amount, held at the ceiling, and the next one comes one
period later (R142). Said here with no engine request due; the issue of requests that waited on an empty counter, in
the same step, is left out (R141; log 16). That the command changes nothing before its time is the model's choice
(log 4). -/
def Obligations.RefillRaisesTheTokens : Prop :=
  ∀ (s : State) (c : Configuration) (due : Nat), s.Sound → s.control.config = some c →
    s.engine.nextRefill = some due →
    (s.time < due → exec .tokenRefill s = .next s) ∧
    (due ≤ s.time → s.engine.context.due = [] →
      exec .tokenRefill s = .next { s with engine := { s.engine with
        tokens := min c.tokenCeiling (s.engine.tokens + c.refillAmount)
        nextRefill := some (due + c.refillPeriod) } })

/-- The last burst of a sector read, while other requests of the position are due or in flight: OKAY, and the sector
is received; ERROR in any burst, and the position has a failed read, ENGINE_READ_ERROR is taken, and in AUDIT and
REBUILD the member's extent takes the position and its damage mark is set (R143, R147, R150, R155, R162). While other
requests of the position are due or in flight the step ends there; that the reads still due are issued and answered
before the engine goes on, after a read error too, is the model's choice (log 41). The answer with which nothing is
due and nothing in flight brings what the reads of the position come to, on the state so reached: the parity of a
SEAL position, the judgement of an AUDIT position, the survivors of a REBUILD position taken again (R146, R149, R153;
what these do is said by SealedGroupRetires, AuditedPositionIsJudged and SurvivorsAreChosenAndChosenAgain). A burst
of a sector read or a sector write that is not the last of its request, whatever the engine's state: it is recorded
with its data, ERROR marks the request failed, its tag is free, the request stays in flight, and nothing else changes
(R143, R186). The data of a read are the beats of its bursts, in burst order (R143). -/
def Obligations.SectorReadIsReceivedOrDamages : Prop :=
  (∀ (s : State) (tag : Fin 32) (status : MemStatus) (beats : List Beat) (r : EngineRequest) (burst g : Nat)
     (k : JobKind) (position : Nat) (grp : Group) (m : Member), s.agenda = [] →
     s.tagRef tag = some (.engineRead r.id burst) → s.control.part = .configured →
     s.engine.inFlight.find? (fun q => q.id == r.id) = some r → r.answered.length = 7 →
     r.op = .readSector → s.engine.state = .running → s.engine.service = some (g, k) →
     s.engine.cursor = some position → s.group g = some grp → grp.members[r.member]? = some m →
     (s.frame m.slot).parityOk = true → (s.frame m.slot).state ≠ .quarantined →
     let failed := r.failed || status == .error
     let whole : EngineRequest := { r with answered := r.answered ++ [(burst, beats)] }
     let others := s.engine.inFlight.filter (fun q => q.id != r.id) ≠ [] ∨ s.engine.context.due ≠ []
     let taken := fun (t : State) =>
       t.engine.state = .running ∧ t.engine.service = some (g, k) ∧
       t.engine.inFlight = s.engine.inFlight.filter (fun q => q.id != r.id) ∧
       t.engine.cursor = some position ∧ t.engine.tokens = s.engine.tokens ∧
       (failed = false →
         t.engine.context = { s.engine.context with
           received := s.engine.context.received ++ [(r.member, whole.data)] } ∧
         t.map = s.map ∧ t.groups = s.groups ∧ t.control = s.control) ∧
       (failed = true →
         t.engine.context = { s.engine.context with readFailed := true } ∧
         s.control.contained.took t.control.contained
           { kind := .engineReadError, channel := some grp.channel, groupNumber := some grp.groupNumber,
             slot := some m.slot, sector := some position, detail := some (.engineRead k m.kind) } ∧
         (k = .seal → t.map = s.map ∧ t.groups = s.groups) ∧
         (k ≠ .seal →
           (t.frame m.slot).extent =
             Extent.insert s.sectors (s.frame m.slot).extent { first := position, count := 1 } ∧
           ∃ grp' m', t.group g = some grp' ∧ grp'.members[r.member]? = some m' ∧ m'.damageMark = true)) ∧
       t.port = s.port ∧ t.holds = s.holds ∧ t.conceal = s.conceal ∧ t.channels = s.channels;
     (others → ∃ t, exec (.engineReadAnswer tag status beats) s = .next t ∧ s.Settled t ∧ taken t) ∧
     (¬ others → s.engine.context.writing = false →
       ∃ u grp', taken u ∧ u.agenda = [] ∧ u.group g = some grp' ∧ grp'.parityCount = grp.parityCount ∧
         exec (.engineReadAnswer tag status beats) s = .next (s.settle (match k with
           | .seal => u.sealReads g grp' position
           | .audit => u.auditReads g grp' position
           | .rebuild => u.rebuildReads g grp' position)))) ∧
  (∀ (s : State) (tag : Fin 32) (status : MemStatus) (beats : List Beat) (r : EngineRequest) (burst : Nat),
      s.agenda = [] → s.engine.inFlight.find? (fun q => q.id == r.id) = some r → r.answered.length < 7 →
      let after := fun (data : List Beat) => State.driveInterrupt { s with
        engine := { s.engine with inFlight := s.engine.inFlight.map (fun q => if q.id = r.id then
          { r with answered := r.answered ++ [(burst, data)], failed := r.failed || status == .error } else q) }
        memPort := { s.memPort with tags := Table.remove tag.val s.memPort.tags } }
      (s.tagRef tag = some (.engineRead r.id burst) →
        exec (.engineReadAnswer tag status beats) s = .next (after beats)) ∧
      (s.tagRef tag = some (.engineWrite r.id burst) →
        exec (.engineWriteAnswer tag status) s = .next (after []))) ∧
  (∀ (r : EngineRequest), r.data.length = 128 ∧ ∀ burst i beats, burst < 8 → i < 16 →
      r.answered.lookup burst = some beats → r.data[16 * burst + i]? = some (beats.getD i 0))

/-- The last burst of a REBUILD sector write: OKAY, and the position is removed from the member's extent, rebuilt
rises if the removal is handed back as removed, and the member's tail write falls due; ERROR, while something is due
or in flight, and ENGINE_WRITE_ERROR is taken, no removal is made and no tail falls due (R154, R156). The answer to a
REBUILT tail write while something is due or in flight: it leaves flight; OKAY has no further effect, ERROR takes
ENGINE_WRITE_ERROR and the removal already made stands (R154, R156). The last burst of a SEAL parity sector write
while something is due or in flight: OKAY has no further effect; ERROR takes ENGINE_WRITE_ERROR, and that parity
member has failed at the position (R147, R162). When it is the last answer of its position, the position is finished:
it joins the failed set of each parity member that failed at it, and the engine takes up the next position with the D
data reads due (R109, R145, R146, R147). The last answer of a REBUILD position, of a tail write, or ERROR of a sector
write, with no read held against the group and a next position with damage within parity: the engine takes up that
position and the survivors are to be read (R145, R152, R153, R156). A tail write falls due in member order: behind
what is due for the members up to its own and ahead of what is due for the members after it, the rest of the requests
due keeping their order (R144, R154). -/
def Obligations.RebuiltSectorAndItsTailAreAnswered : Prop :=
  (∀ (s : State) (tag : Fin 32) (status : MemStatus) (r : EngineRequest) (burst g : Nat) (data : Sector)
     (position : Nat) (grp : Group) (m : Member), s.agenda = [] →
     s.tagRef tag = some (.engineWrite r.id burst) → s.control.part = .configured →
     s.engine.inFlight.find? (fun q => q.id == r.id) = some r → r.answered.length = 7 →
     r.op = .writeSector data → s.engine.state = .running → s.engine.service = some (g, .rebuild) →
     s.engine.cursor = some position → s.group g = some grp → grp.members[r.member]? = some m →
     (s.frame m.slot).parityOk = true → (s.frame m.slot).state ≠ .quarantined →
     (s.engine.inFlight.filter (fun q => q.id != r.id) = [] → s.engine.context.due = [] →
       r.failed = false ∧ status = .okay) →
     let failed := r.failed || status == .error
     let removal := Extent.remove (s.frame m.slot).extent position
     ∃ t grp', exec (.engineWriteAnswer tag status) s = .next t ∧ s.Settled t ∧
       t.engine.inFlight = s.engine.inFlight.filter (fun q => q.id != r.id) ∧
       t.engine.cursor = some position ∧ t.group g = some grp' ∧
       (failed = false →
         (t.frame m.slot).extent = removal.1 ∧
         grp'.counts.rebuilt = grp.counts.rebuilt + (if removal.2 then 1 else 0) ∧
         t.engine.context.due = insertTail r.member s.engine.context.due ∧ t.control = s.control) ∧
       (failed = true →
         t.map = s.map ∧ grp' = grp ∧ t.engine.context = s.engine.context ∧
         s.control.contained.took t.control.contained
           { kind := .engineWriteError, channel := some grp.channel, groupNumber := some grp.groupNumber,
             slot := some m.slot, sector := some position
             detail := some (.engineWrite .rebuild m.kind false) }) ∧
       t.port = s.port ∧ t.holds = s.holds ∧ t.conceal = s.conceal ∧ t.channels = s.channels) ∧
  (∀ (s : State) (tag : Fin 32) (status : MemStatus) (r : EngineRequest) (g : Nat) (k : JobKind)
     (position : Nat) (grp : Group) (m : Member), s.agenda = [] →
     s.tagRef tag = some (.engineTail r.id) → s.control.part = .configured →
     s.engine.inFlight.find? (fun q => q.id == r.id) = some r → r.answered = [] → r.failed = false →
     r.op = .writeTail → s.engine.state = .running → s.engine.service = some (g, k) →
     s.engine.cursor = some position → s.group g = some grp → grp.members[r.member]? = some m →
     (s.engine.inFlight.filter (fun q => q.id != r.id) ≠ [] ∨ s.engine.context.due ≠ []) →
     ∃ t, exec (.engineTailWriteAnswer tag status) s = .next t ∧ s.Settled t ∧ s.SameFrames t ∧
       t.engine = { s.engine with inFlight := s.engine.inFlight.filter (fun q => q.id != r.id) } ∧
       t.memPort.tags = Table.remove tag.val s.memPort.tags ∧ t.port = s.port ∧ t.channels = s.channels ∧
       (status = .okay → t.control = s.control) ∧
       (status = .error → s.control.contained.took t.control.contained
         { kind := .engineWriteError, channel := some grp.channel, groupNumber := some grp.groupNumber,
           slot := some m.slot, sector := some position, detail := some (.engineWrite k m.kind true) })) ∧
  (∀ (s : State) (tag : Fin 32) (status : MemStatus) (r : EngineRequest) (burst g : Nat) (data : Sector)
      (position : Nat) (grp : Group) (m : Member),
      s.agenda = [] → s.tagRef tag = some (.engineWrite r.id burst) → s.control.part = .configured →
      s.engine.inFlight.find? (fun q => q.id == r.id) = some r → r.answered.length = 7 →
      r.op = .writeSector data → s.engine.state = .running → s.engine.service = some (g, .seal) →
      s.engine.cursor = some position → s.group g = some grp → grp.members[r.member]? = some m →
      (s.engine.inFlight.filter (fun q => q.id != r.id) ≠ [] ∨ s.engine.context.due ≠ []) →
      let failed := r.failed || status == .error
      ∃ t fp, exec (.engineWriteAnswer tag status) s = .next t ∧ s.Settled t ∧ s.SameFrames t ∧
        t.engine = { s.engine with
          inFlight := s.engine.inFlight.filter (fun q => q.id != r.id)
          context := { s.engine.context with failedParity := fp } } ∧
        (∀ k, k ∈ fp ↔ k ∈ s.engine.context.failedParity ∨ (failed = true ∧ k = r.member)) ∧
        (failed = false → t.control = s.control) ∧
        (failed = true → s.control.contained.took t.control.contained
          { kind := .engineWriteError, channel := some grp.channel, groupNumber := some grp.groupNumber,
            slot := some m.slot, sector := some position
            detail := some (.engineWrite .seal m.kind false) }) ∧
        t.port = s.port ∧ t.channels = s.channels) ∧
  (∀ (s : State) (tag : Fin 32) (status : MemStatus) (r : EngineRequest) (burst g : Nat) (data : Sector)
      (position : Nat) (grp : Group) (m : Member),
      s.agenda = [] → s.tagRef tag = some (.engineWrite r.id burst) → s.control.part = .configured →
      s.engine.inFlight.find? (fun q => q.id == r.id) = some r → r.answered.length = 7 →
      r.op = .writeSector data → s.engine.state = .running → s.engine.service = some (g, .seal) →
      s.engine.cursor = some position → s.group g = some grp → grp.members[r.member]? = some m →
      s.engine.inFlight.filter (fun q => q.id != r.id) = [] → s.engine.context.due = [] →
      s.engine.context.writing = true → position + 1 < s.sectors →
      let failed := r.failed || status == .error
      ∃ t grp', exec (.engineWriteAnswer tag status) s = .next t ∧ s.Settled t ∧
        t.engine = { s.engine with
          inFlight := [], cursor := some (position + 1)
          context := { PositionContext.empty with
            chosen := List.range grp.dataCount
            due := (List.range grp.dataCount).map (fun k => { member := k, op := .readSector }) } } ∧
        t.group g = some grp' ∧ grp'.state = grp.state ∧ grp'.members.length = grp.members.length ∧
        (∀ (i : Nat) (n n' : Member), grp.members[i]? = some n → grp'.members[i]? = some n' →
          n'.slot = n.slot ∧ ∀ q, q ∈ n'.failed ↔ q ∈ n.failed ∨ (q = position ∧
            (i ∈ s.engine.context.failedParity ∨ (failed = true ∧ i = r.member)))) ∧
        (∀ j, j ≠ g → t.group j = s.group j) ∧
        (failed = false → t.control = s.control) ∧
        (failed = true → s.control.contained.took t.control.contained
          { kind := .engineWriteError, channel := some grp.channel, groupNumber := some grp.groupNumber,
            slot := some m.slot, sector := some position
            detail := some (.engineWrite .seal m.kind false) }) ∧
        t.map = s.map ∧ t.holds = s.holds ∧ t.conceal = s.conceal ∧ t.port = s.port ∧
        t.channels = s.channels) ∧
  (∀ (s : State) (i : Instr) (tag : Fin 32) (status : MemStatus) (r : EngineRequest) (burst g : Nat)
      (data : Sector) (position : Nat) (grp : Group) (m : Member),
      ((i = .engineTailWriteAnswer tag status ∧ s.tagRef tag = some (.engineTail r.id) ∧ r.answered = [] ∧
          r.op = .writeTail) ∨
       (i = .engineWriteAnswer tag status ∧ s.tagRef tag = some (.engineWrite r.id burst) ∧
          r.answered.length = 7 ∧ r.op = .writeSector data ∧ (r.failed = true ∨ status = .error))) →
      s.agenda = [] → s.control.part = .configured →
      s.engine.inFlight.find? (fun q => q.id == r.id) = some r → s.engine.state = .running →
      s.engine.service = some (g, .rebuild) → s.engine.cursor = some position → s.group g = some grp →
      grp.members[r.member]? = some m → s.engine.inFlight.filter (fun q => q.id != r.id) = [] →
      s.engine.context.due = [] → s.engine.context.writing = true → position + 1 < s.sectors →
      (∀ n ∈ grp.members, (s.frame n.slot).parityOk = true) → (∀ h ∈ s.holds, h.waitsOn ≠ .group g) →
      let damaged := s.damagedSet grp (position + 1)
      damaged ≠ [] → damaged.length ≤ grp.parityCount →
      ∃ t, exec i s = .next t ∧ s.Settled t ∧ s.SameFrames t ∧
        t.engine = { s.engine with
          inFlight := [], cursor := some (position + 1)
          context := { PositionContext.empty with
            damaged := damaged, chosen := survivors grp damaged
            due := (survivors grp damaged).map (fun k => { member := k, op := .readSector }) } } ∧
        (r.failed = false → status = .okay → t.control = s.control) ∧
        (r.failed = true ∨ status = .error → s.control.contained.took t.control.contained
          { kind := .engineWriteError, channel := some grp.channel, groupNumber := some grp.groupNumber,
            slot := some m.slot, sector := some position
            detail := some (.engineWrite .rebuild m.kind (decide (r.op = .writeTail))) }) ∧
        t.port = s.port ∧ t.channels = s.channels) ∧
  (∀ (member : Nat) (before after : List DueRequest), (∀ d ∈ before, d.member ≤ member) →
      (∀ d, after.head? = some d → member < d.member) →
      insertTail member (before ++ after) = before ++ { member := member, op := .writeTail } :: after)

/-! ## Deadlines, searches and the ends of a clear and a fault entry -/

/-- HOLD_EXPIRED with one held request at its deadline and no other in the queue: it leaves, a read answered POISON
with zero beats and a write REFUSED; HOLD_EXPIRED is posted with the positions touched as one range, and taken
against the log (R74). With several, every one at its deadline leaves and is answered, in queue order, and those that
neither reached theirs nor wait on one that did stay held as they were (R74). A follower released by an expiry is
left out here. That the command changes nothing before the first deadline is the model's choice (log 4). That an
entry's report is posted before its fault is raised and its FAULT report posted is the model's choice (log 47). -/
def Obligations.HeldRequestsExpire : Prop :=
  (∀ (s : State) (h : Held) (a : Accepted), s.Sound → s.holds = [h] → s.accepted h.tag = some a →
     (s.time < h.deadline → exec .holdExpired s = .next s) ∧
     (h.deadline ≤ s.time →
       ∃ t, exec .holdExpired s = .next t ∧ s.Settled t ∧ t.holds = [] ∧ t.accepted h.tag = none ∧
         (∀ k, k ≠ h.tag → t.accepted k = s.accepted k) ∧
         t.port.sent = s.port.sent ++ [{
           tag := h.tag, status := if a.kind = .read then .poison else .refused
           beats := if a.kind = .read then List.replicate a.length 0 else [] }] ∧
         (t.control.contained.first = some {
             kind := .holdExpired, channel := none, groupNumber := none, slot := some h.slot
             sector := (h.byPayload.toList ++ h.byTail).head?, detail := some (.request h.tag h.kind) } ∨
           .holdExpired ∈ t.control.contained.next) ∧
         (s.RingRoom → ∃ later, t.control.posts = s.control.posts ++
           .holdExpired h.slot (match h.byPayload.toList ++ h.byTail with
             | [] => none
             | q :: qs => some { first := q, count := qs.length + 1 })
             (h.groupAtHold.map (·.1)) (h.groupAtHold.map (·.2)) :: later) ∧
         t.map = s.map ∧ t.groups = s.groups ∧ t.conceal = s.conceal ∧ t.engine = s.engine ∧
         t.channels = s.channels ∧ s.SamePort t)) ∧
  (∀ s : State, s.Sound →
     (∀ h ∈ s.holds, s.time < h.deadline → ∀ e ∈ s.holds, e.deadline ≤ s.time → h.waitsOn ≠ .tag e.tag) →
     ∃ t, exec .holdExpired s = .next t ∧ s.Settled t ∧
       t.holds = s.holds.filter (fun h => decide (s.time < h.deadline)) ∧
       t.port.sent = s.port.sent ++
         ((s.holds.filter (fun h => decide (h.deadline ≤ s.time))).map (·.tag)).eraseDups.filterMap s.refusal ∧
       (∀ h ∈ s.holds, h.deadline ≤ s.time → t.accepted h.tag = none) ∧
       (∀ k, (∀ h ∈ s.holds, h.deadline ≤ s.time → h.tag ≠ k) → t.accepted k = s.accepted k) ∧
       t.map = s.map ∧ t.groups = s.groups ∧ t.conceal = s.conceal ∧ t.engine = s.engine ∧
       t.channels = s.channels ∧ t.control.part = s.control.part)

/-- A gather deadline reached in GATHERING, with the engine at work on another job, the AUDIT flag set and P at least
1: every position counts as arrived, those missing are in the extents, and the CHECK sends the group to
AWAITING_REREAD when a position is beyond parity and budget is left, and to AUDITING otherwise (R119, R122, R124,
R126). A reread deadline reached in AWAITING_REREAD under the same conditions, with requested positions below N: the
requested positions that did not arrive are in the extents, nothing stays requested, and the CHECK opens another
round if budget is left or sends the group on (R124, R126, R128). The CHECK itself, whatever its outcome. A position
is beyond parity when more than P members are damaged at it (R15, R122). Every member with a non-empty extent has its
damage mark set; at the first CHECK, with no round used, the first-pass sets become the extents' positions and
damaged-at-check their number (R122). With a wear threshold above 0 each member not QUARANTINED whose total exceeds
it and whose worn flag is no has the flag set, is counted, and is reported by WORN (R123). A CHECK that finds a
position beyond parity while budget is left opens a round: each member is asked for every position of each range of
its extent that holds a beyond-parity position, one REREAD report for each member asked, with its ranges and the
round's number, behind the WORN reports, in member order; rounds used rises, the reread deadline is set,
AWAITING_REREAD (R124, R126). Any other CHECK adds what it found to the beyond-parity set and, with a round used,
closes the reread phase: the first-pass positions no longer damaged are transient, the others persistent (R124,
R125). It sends the group to AUDITING with an AUDIT job when AUDIT is set and P is at least 1; else to RECONSTRUCTING
with a REBUILD job when some extent is not empty; else the group retires next in the step (R124, R129). -/
def Obligations.DeadlinesCloseTheGatheringAndTheRound : Prop :=
  (∀ (s : State) (g : Fin 32) (grp : Group) (terms : RestoreTerms) (d : Nat), s.agenda = [] →
     s.control.part = .configured → s.group g.val = some grp → grp.state = .gathering →
     grp.gatherDeadline = some d → d ≤ s.time → grp.terms = some terms → terms.audit = true →
     1 ≤ grp.parityCount → grp.rounds = 0 → s.engine.state = .running →
     (s.control.config.map (·.wearThreshold)).getD 0 = 0 →
     (∀ m ∈ grp.members, (s.frame m.slot).parityOk = true ∧ (s.frame m.slot).state = .arriving) →
     (grp.members.map (·.slot)).Nodup →
     ∃ t grp', exec (.gatherDeadline g) s = .next t ∧ s.Settled t ∧ t.group g.val = some grp' ∧
       grp'.gatherDeadline = none ∧ grp'.missing = 0 ∧
       (∀ (i : Nat) (m m' : Member), grp.members[i]? = some m → grp'.members[i]? = some m' →
         m'.slot = m.slot ∧
         ∀ q, q < s.sectors → q ∈ m'.arrived ∧ (q ∉ m.arrived → (t.frame m.slot).extent.holds q = true)) ∧
       grp'.state = (if t.beyondParity grp' ≠ [] ∧ 0 < terms.rereadBudget then .awaitingReread else .auditing) ∧
       (grp'.state = .awaitingReread → grp'.rounds = 1 ∧
         grp'.rereadDeadline = some (s.time + terms.rereadLimit * 1000)) ∧
       (∀ j, j ≠ g.val → t.group j = s.group j) ∧ t.holds = s.holds ∧ t.conceal = s.conceal ∧
       t.channels = s.channels) ∧
  (∀ (s : State) (g : Fin 32) (grp : Group) (terms : RestoreTerms) (d : Nat), s.agenda = [] →
     s.control.part = .configured → s.group g.val = some grp → grp.state = .awaitingReread →
     grp.rereadDeadline = some d → d ≤ s.time → grp.terms = some terms → terms.audit = true →
     1 ≤ grp.parityCount → 1 ≤ grp.rounds → s.engine.state = .running →
     (s.control.config.map (·.wearThreshold)).getD 0 = 0 →
     (∀ m ∈ grp.members, (s.frame m.slot).parityOk = true ∧ (s.frame m.slot).state = .arriving) →
     (grp.members.map (·.slot)).Nodup →
     (∀ m ∈ grp.members, ∀ q ∈ m.requested, q < s.sectors) →
     ∃ t grp', exec (.rereadDeadline g) s = .next t ∧ s.Settled t ∧ t.group g.val = some grp' ∧
       grp'.state = (if t.beyondParity grp' ≠ [] ∧ grp.rounds < terms.rereadBudget then .awaitingReread
         else .auditing) ∧
       (grp'.state = .auditing → grp'.rereadDeadline = none ∧ grp'.rounds = grp.rounds) ∧
       (grp'.state = .awaitingReread → grp'.rounds = grp.rounds + 1 ∧
         grp'.rereadDeadline = some (s.time + terms.rereadLimit * 1000)) ∧
       (∀ (i : Nat) (m m' : Member), grp.members[i]? = some m → grp'.members[i]? = some m' →
         m'.slot = m.slot ∧ (grp'.state = .auditing → m'.requested = [] ∧ m'.outstanding = 0) ∧
         ∀ q ∈ m.requested, (t.frame m.slot).extent.holds q = true) ∧
       (∀ j, j ≠ g.val → t.group j = s.group j) ∧ t.holds = s.holds ∧ t.conceal = s.conceal ∧
       t.channels = s.channels) ∧
  (∀ (s : State) (g : Nat) (grp : Group) (terms : RestoreTerms), s.configured = true → s.group g = some grp →
      grp.terms = some terms → (∀ m ∈ grp.members, (s.frame m.slot).parityOk = true) →
      (grp.members.map (·.slot)).Nodup → (∀ t ∈ s.agenda, t.presents = false) →
      let t := s.check g
      let beyond := s.beyondParity grp
      let again := beyond ≠ [] ∧ grp.rounds < terms.rereadBudget
      let damaged := ∃ m ∈ grp.members, s.extentOf m.slot ≠ []
      let threshold := (s.control.config.map (·.wearThreshold)).getD 0
      let worn := fun (m : Member) => threshold ≠ 0 ∧ threshold < m.correctedTotal ∧
        (s.frame m.slot).worn = false ∧ (s.frame m.slot).state ≠ .quarantined
      let asked := fun (m : Member) => (s.extentOf m.slot).filter (fun r => beyond.any r.holds)
      let wornReports := (List.range grp.members.length).filterMap (fun i => (grp.members[i]?).bind (fun m =>
        if worn m then some (Report.worn grp.channel grp.groupNumber m.slot m.kind (grp.expected i)
          m.correctedTotal) else none))
      let rereadReports := (List.range grp.members.length).filterMap (fun i => (grp.members[i]?).bind (fun m =>
        if again ∧ asked m ≠ [] then some (Report.reread grp.channel grp.groupNumber m.slot m.kind
          (grp.expected i) (grp.rounds + 1) (asked m)) else none))
      (∀ q, q ∈ beyond ↔ q < s.sectors ∧ grp.parityCount < (s.damagedSet grp q).length) ∧
      ∃ grp', t.group g = some grp' ∧ grp'.members.length = grp.members.length ∧
        (∀ (i : Nat) (m m' : Member), grp.members[i]? = some m → grp'.members[i]? = some m' →
          m'.slot = m.slot ∧ m'.kind = m.kind ∧ m'.arrived = m.arrived ∧
          m'.correctedTotal = m.correctedTotal ∧
          (m'.damageMark = true ↔ m.damageMark = true ∨ s.extentOf m.slot ≠ []) ∧
          m'.firstPass = (if grp.rounds = 0 then (s.extentOf m.slot).positions else m.firstPass) ∧
          (again → m'.requested = Extent.positions (asked m) ∧ m'.outstanding = m'.requested.length) ∧
          (¬ again → m'.requested = m.requested ∧ m'.outstanding = m.outstanding)) ∧
        (∀ q, q ∈ grp'.beyond ↔ q ∈ grp.beyond ∨ (¬ again ∧ q ∈ beyond)) ∧
        grp'.counts = { grp.counts with
          damagedAtCheck := if grp.rounds = 0 then
              (grp.members.map (fun m => (s.extentOf m.slot).positions.length)).sum
            else grp.counts.damagedAtCheck
          transient := if ¬ again ∧ 1 ≤ grp.rounds then (grp.members.map (fun m =>
              (m.firstPass.filter (fun q => !(s.extentOf m.slot).holds q)).length)).sum
            else grp.counts.transient
          persistent := if ¬ again ∧ 1 ≤ grp.rounds then (grp.members.map (fun m =>
              (m.firstPass.filter (fun q => (s.extentOf m.slot).holds q)).length)).sum
            else grp.counts.persistent
          wornFrames := grp.counts.wornFrames + (grp.members.filter (fun m => decide (worn m))).length } ∧
        (∀ k, t.frame k = { s.frame k with
          worn := (s.frame k).worn || decide (∃ m ∈ grp.members, m.slot = k ∧ worn m) }) ∧
        (s.RingRoomFor (wornReports.length + rereadReports.length) →
          t.control.posts = s.control.posts ++ wornReports ++ rereadReports) ∧
        (again → grp'.state = .awaitingReread ∧ grp'.rounds = grp.rounds + 1 ∧
          grp'.rereadDeadline = some (s.time + terms.rereadLimit * 1000) ∧ t.engine = s.engine ∧
          t.port = s.port ∧ t.agenda = s.agenda) ∧
        (¬ again → grp'.rounds = grp.rounds) ∧
        (¬ again → terms.audit = true → 1 ≤ grp.parityCount → grp'.state = .auditing ∧
          t.engine = { s.engine with
            queue := s.engine.queue ++ [{ group := g, kind := .audit, promoted := false }] } ∧
          t.port = (s.fenceSlots (grp.members.map (·.slot))).port ∧ t.agenda = .takeJob :: s.agenda) ∧
        (¬ again → (terms.audit = false ∨ grp.parityCount = 0) → damaged → grp'.state = .reconstructing ∧
          t.engine = { s.engine with
            queue := s.engine.queue ++ [{ group := g, kind := .rebuild, promoted := false }] } ∧
          t.port = (s.fenceSlots (grp.members.map (·.slot))).port ∧ t.agenda = .takeJob :: s.agenda) ∧
        (¬ again → (terms.audit = false ∨ grp.parityCount = 0) → ¬ damaged → grp'.state = grp.state ∧
          t.engine = s.engine ∧ t.port = s.port ∧ t.agenda = .retire g :: s.agenda) ∧
        (∀ j, j ≠ g → t.group j = s.group j) ∧ t.holds = s.holds ∧ t.conceal = s.conceal ∧
        t.channels = s.channels ∧ t.control.part = .configured)

/-- A search that ends with an outcome (R35; the model's own last step where no entry is left, log 19). Whatever the
outcome, the concealments of the slot end, the slot leaves the pending-search list and the next search starts (R33,
R36). No member counted: the slot is given up, STALE with every other field absent; FRAME_STALE is posted and
MAP_PARITY taken (R37). One: the entry is rebuilt from the member record, with an empty extent in a RECORD group and
in a GATHERING group of which no position of it has arrived, else with the whole frame, which sets the damage mark;
MAP_PARITY is taken with channel and group (R38). Several: the slot stays QUARANTINED, MAP_MEMBERSHIP is taken with
the number counted, and the part enters FAULTED after what every outcome does (R39; log 28). Requests held on the
slot are released in queue order, a follower of the same page behind the one it waits on, and classified against the
new state: here they pass (R57, R68, R71, R73). That the entry is rewritten, and FRAME_STALE with it posted, before
the concealments of the slot end and their WITHDRAWN reports are posted, is the model's choice (log 23), and that
MAP_PARITY is raised before them too is its choice (log 40). A step that meets an entry that passes its check, with
an occupied entry of a higher index behind it, notes the group if the slot is in its member list, goes on to the next
index, and changes nothing else (R35). What is counted at the end is the members noted whose groups are still the
ones noted, and live (R35). -/
def Obligations.SearchOutcomes : Prop :=
  (∀ (s : State) (q last : Search), s.SearchEnds q last → (∀ h ∈ s.holds, h.waitsOn ≠ .slot q.slot) →
     (s.countNoted last).length ≤ 1 →
     (∀ g, s.countNoted last = [g] → ∃ grp i m, s.group g = some grp ∧ grp.place q.slot = some i ∧
       grp.members[i]? = some m) →
     ∃ t, exec .searchStep s = .next t ∧ s.Settled t ∧
       t.map.pendingSearch = s.map.pendingSearch.filter (fun k => decide (k ≠ q.slot)) ∧
       t.map.search = t.map.pendingSearch.head?.map (fun k => { slot := k, next := 0, noted := [] }) ∧
       (∀ e, e ∈ t.conceal.table ↔
         e ∈ s.conceal.table ∧ e.target ≠ q.slot ∧ ¬ s.WithdrawnBy [q.slot] e.target) ∧
       (∀ k, s.WithdrawnBy [q.slot] k → (s.frame k).state = .concealed →
         t.frame k = { s.frame k with state := .lost }) ∧
       (∀ k, k ≠ q.slot → (s.WithdrawnBy [q.slot] k → (s.frame k).state ≠ .concealed) →
         t.frame k = s.frame k) ∧
       (s.countNoted last = [] →
         t.frame q.slot = { FrameEntry.free with state := .stale } ∧ t.groups = s.groups ∧
         (t.control.contained.first = some {
             kind := .mapParity, channel := none, groupNumber := none, slot := some q.slot, sector := none
             detail := none } ∨ .mapParity ∈ t.control.contained.next) ∧
         (s.RingRoom → ∃ later, t.control.posts = s.control.posts ++
           .frameStale q.slot none none none none false :: later)) ∧
       (∀ g grp i m, s.countNoted last = [g] → s.group g = some grp → grp.place q.slot = some i →
         grp.members[i]? = some m →
         (t.frame q.slot).state = (if grp.role = .record then .filling else .arriving) ∧
         (t.frame q.slot).channel = some grp.channel ∧ (t.frame q.slot).kind = some m.kind ∧
         (t.frame q.slot).frameNumber = (if m.kind = .data then some (grp.expected i) else none) ∧
         (t.frame q.slot).groupNumber = some grp.groupNumber ∧ (t.frame q.slot).owner = some g ∧
         (t.frame q.slot).worn = false ∧
         (t.frame q.slot).extent = (if grp.role = .record ∨ (grp.state = .gathering ∧ m.arrived = []) then []
           else [{ first := 0, count := s.sectors }]) ∧
         (∃ grp' m', t.group g = some grp' ∧ grp'.members[i]? = some m' ∧
           m' = { m with damageMark :=
             m.damageMark || (! decide (grp.role = .record ∨ (grp.state = .gathering ∧ m.arrived = []))) }) ∧
         (∀ j, j ≠ g → t.group j = s.group j) ∧
         s.control.contained.took t.control.contained {
           kind := .mapParity, channel := some grp.channel, groupNumber := some grp.groupNumber
           slot := some q.slot, sector := none, detail := none }) ∧
       t.control.part = .configured ∧ t.holds = s.holds ∧ t.conceal.work = [] ∧ t.engine = s.engine ∧
       t.port = s.port ∧ t.channels = s.channels) ∧
  (∀ (s : State) (q last : Search), s.SearchEnds q last → 2 ≤ (s.countNoted last).length →
     ∃ t, exec .searchStep s = .next t ∧ s.Settled t ∧
       t.control.part = .faulted ∧ t.control.entering = true ∧ t.map.search = none ∧
       t.map.pendingSearch = [] ∧ t.frame q.slot = s.frame q.slot ∧
       (∀ e, e ∈ t.conceal.table ↔
         e ∈ s.conceal.table ∧ e.target ≠ q.slot ∧ ¬ s.WithdrawnBy [q.slot] e.target) ∧
       s.AnswersHolds t ∧
       s.control.uncontained.took t.control.uncontained {
         kind := .mapMembership, channel := none, groupNumber := none, slot := some q.slot, sector := none
         detail := some (.members (s.countNoted last).length) }) ∧
  (∀ (s : State) (q last : Search) (h f : Held) (a b : Accepted) (c : Configuration), s.SearchEnds q last →
     s.countNoted last = [] → s.control.config = some c → s.holds = [h, f] → f.tag ≠ h.tag →
     h.waitsOn = .slot q.slot → f.waitsOn = .tag h.tag →
     s.accepted h.tag = some a → s.accepted f.tag = some b → a.triggers = [] → b.triggers = [] →
     a.seq < b.seq → c.inArena a.addr = true → c.inArena b.addr = true →
     (c.resolve a.addr).slot = q.slot → (c.resolve b.addr).slot = q.slot →
     ∃ t, exec .searchStep s = .next t ∧ s.Settled t ∧ t.holds = [] ∧ t.port.sent = s.port.sent ∧
       t.accepted h.tag = some { a with disposition := .waitingIssue, fence := none } ∧
       t.accepted f.tag = some { b with disposition := .waitingIssue, fence := none } ∧
       t.memPort.passList = s.memPort.passList ++
         [{ ref := .pass h.tag, kind := a.kind, addr := a.addr, length := a.length, beats := a.beats },
          { ref := .pass f.tag, kind := b.kind, addr := b.addr, length := b.length, beats := b.beats }]) ∧
  (∀ (s : State) (q : Search) (g : Nat) (grp : Group), s.agenda = [] → s.control.part = .configured →
      s.map.search = some q → q.next ≤ g → s.group g = some grp → grp.checkOk = true →
      (∀ j, q.next ≤ j → j < g → s.group j = none) → (∃ j, g < j ∧ (s.group j).isSome = true) →
      Table.wf s.groups.entries = true →
      exec .searchStep s = .next (State.driveInterrupt { s with map := { s.map with search := some {
        slot := q.slot, next := g + 1
        noted := if q.slot ∈ grp.members.map (·.slot) then q.noted ++ [(g, grp.serial)] else q.noted } } })) ∧
  (∀ (s : State) (q : Search),
      (∀ g, g ∈ s.countNoted q ↔ ∃ grp, s.group g = some grp ∧ grp.state ≠ .retiring ∧
        (g, grp.serial) ∈ q.noted) ∧
      (s.countNoted q).Sublist (q.noted.map (·.1)))

/-- A Group Table entry that fails its check in a search step: GROUP_TABLE_PARITY is taken, and the part enters
FAULTED with the first two steps of R199: the search ended without outcome, the slot left QUARANTINED, every held
request answered in queue order without report or fault, the engine told to quiesce, channel reads marked for discard
(R35, R76, R199). That a QUIET engine keeps its job, cursor and queue until the entry is complete is the model's
choice (log 15). -/
def Obligations.FailingGroupEntryFaultsThePart : Prop :=
  ∀ (s : State) (q : Search) (g : Nat) (grp : Group), s.agenda = [] → s.control.part = .configured →
    s.map.search = some q → q.next ≤ g → s.group g = some grp → grp.checkOk = false →
    (∀ j, q.next ≤ j → j < g → s.group j = none) → Table.wf s.groups.entries = true →
    s.engine.state ≠ .quiet →
    ∃ t, exec .searchStep s = .next t ∧ s.Settled t ∧ t.control.part = .faulted ∧
      t.control.entering = true ∧ t.map = { s.map with pendingSearch := [], search := none } ∧
      s.control.uncontained.took t.control.uncontained
        { kind := .groupTableParity, channel := none, groupNumber := none, slot := some q.slot
          sector := none, detail := some (.groupIndex g) } ∧
      t.engine = { s.engine with state := if s.engine.inFlight = [] then .quiet else .quiescing } ∧
      (∀ c : Fin 8, t.channel c =
        if (s.channel c).fetch = .none then s.channel c else { s.channel c with discard := true }) ∧
      t.conceal = s.conceal ∧ s.AnswersHolds t

/-- WARM_CLEAR_ABANDON, once the engine is QUIET and no channel read is outstanding: the groups gone, every frame
FREE, the channels DISABLED with counters, error codes and results kept, the engine IDLE with nothing queued and its
counter at the ceiling, the indices 0, the part CONFIGURED or BLANK (R198 steps 4 to 7); a failing Concealment Table
entry is left out. FAULT_ENTRY_ABANDON, once the engine is QUIET and no channel read is outstanding: the groups gone,
the channels DISABLED, the engine IDLE with its counter kept, the part FAULTED with the entry complete (R199); a
clear that was noted then begins (R198). A non-empty Concealment Table without a noted clear and the abandonment
states of the members are left out here. That either command changes nothing before its conditions hold is the
model's choice (log 4). -/
def Obligations.WarmClearAndFaultEntryEnd : Prop :=
  (∀ s : State, s.Sound → s.control.part = .clearing →
     ((s.engine.state ≠ .quiet ∨ ∃ c : Fin 8, (s.channel c).fetch ≠ .none) →
       exec .warmClearAbandon s = .next s) ∧
     (s.engine.state = .quiet → (∀ c : Fin 8, (s.channel c).fetch = .none) →
       (∀ e ∈ s.conceal.table, e.checkOk = true) →
       ∃ t, exec .warmClearAbandon s = .next t ∧ s.Settled t ∧
         t.control.part = (if s.control.config = none then .blank else .configured) ∧
         t.control.writeIndex = 0 ∧ t.control.taken = 0 ∧ t.control.overflow = false ∧
         t.control.takenRefused = false ∧ t.control.config = s.control.config ∧
         t.control.contained = s.control.contained ∧ t.control.uncontained = s.control.uncontained ∧
         t.control.loadResult = s.control.loadResult ∧
         t.groups.entries = [] ∧ t.map = { entries := [], pendingSearch := [], search := none } ∧
         t.conceal = { table := [], work := [] } ∧
         t.engine.state = .idle ∧ t.engine.queue = [] ∧ t.engine.service = none ∧
         t.engine.cursor = none ∧ t.engine.inFlight = [] ∧
         t.engine.tokens = (s.control.config.map (·.tokenCeiling)).getD 0 ∧
         (∀ c : Fin 8, t.channel c = { s.channel c with
           state := .disabled, occupied := 0, nextPlan := none, fetch := .none, discard := false }) ∧
         t.port = s.port ∧ s.SamePort t)) ∧
  (∀ s : State, s.Sound → s.control.part = .faulted → s.control.entering = true →
     ((s.engine.state ≠ .quiet ∨ ∃ c : Fin 8, (s.channel c).fetch ≠ .none) →
       exec .faultEntryAbandon s = .next s) ∧
     (s.engine.state = .quiet → (∀ c : Fin 8, (s.channel c).fetch = .none) →
       s.control.clearNoted = false → s.conceal.table = [] →
       ∃ t, exec .faultEntryAbandon s = .next t ∧ s.Settled t ∧
         t.control = { s.control with entering := false } ∧ t.groups.entries = [] ∧
         t.engine.state = .idle ∧ t.engine.queue = [] ∧ t.engine.service = none ∧
         t.engine.cursor = none ∧ t.engine.inFlight = [] ∧ t.engine.tokens = s.engine.tokens ∧
         (∀ c : Fin 8, t.channel c = { s.channel c with
           state := .disabled, occupied := 0, nextPlan := none, fetch := .none, discard := false }) ∧
         t.port = s.port ∧ t.holds = s.holds ∧ s.SamePort t) ∧
     (s.engine.state = .quiet → (∀ c : Fin 8, (s.channel c).fetch = .none) →
       s.control.clearNoted = true → (∀ e ∈ s.conceal.table, e.checkOk = true) →
       ∃ t, exec .faultEntryAbandon s = .next t ∧ s.Settled t ∧ t.control.part = .clearing ∧
         t.control.entering = false ∧ t.control.clearNoted = false ∧ t.groups.entries = [] ∧
         (∀ c : Fin 8, (t.channel c).state = .disabled)))

/-! ## Extents, parity and formats (R7, R10, R14, R15, R21 to R23, R100, R149, R208, R209) -/

/-- Inserting a range into a well-formed extent: well-formed again; exactly the union of the positions whenever some
well-formed extent of at most four ranges holds just those, and the whole frame exactly when the union needs more
than four ranges (R21, R22). -/
def Obligations.InsertionIsTheUnionOrTheWholeFrame : Prop :=
  ∀ (n : Nat) (ext : Extent) (r : SectorRange), ext.wf n = true → 1 ≤ r.count → r.stop ≤ n →
    (ext.insert n r).wf n = true ∧
    (∀ u : Extent, u.wf n = true → (∀ q, u.holds q = (ext.holds q || r.holds q)) → ext.insert n r = u) ∧
    ((¬ ∃ u : Extent, u.wf n = true ∧ ∀ q, u.holds q = (ext.holds q || r.holds q)) →
      ext.insert n r = [{ first := 0, count := n }])

/-- Removing a position from a well-formed extent (R23): nothing if no range holds it; the range of count 1 deleted;
an end of a longer range cut off; a split when the extent holds three ranges or fewer; and with four ranges and the
position inside one, the list unchanged and the removal handed back as kept. -/
def Obligations.RemovalFromAnExtent : Prop :=
  ∀ (n q : Nat) (ext : Extent), ext.wf n = true →
    ((Extent.remove ext q).1.wf n = true) ∧
    (ext.holds q = false → Extent.remove ext q = (ext, true)) ∧
    (∀ before r after, ext = before ++ r :: after → r.holds q = true →
      (r.count = 1 → Extent.remove ext q = (before ++ after, true)) ∧
      (1 < r.count → q = r.first → Extent.remove ext q =
        (before ++ { first := r.first + 1, count := r.count - 1 } :: after, true)) ∧
      (1 < r.count → q = r.first + r.count - 1 → Extent.remove ext q =
        (before ++ { first := r.first, count := r.count - 1 } :: after, true)) ∧
      (r.first < q → q < r.first + r.count - 1 →
        Extent.remove ext q =
          if ext.length ≤ 3 then
            (before ++ { first := r.first, count := q - r.first } ::
              { first := q + 1, count := r.first + r.count - (q + 1) } :: after, true)
          else (ext, false)))

/-- The expected frame number of a member (R10): the plan's first frame number + i modulo 2^32 for data member i, the
group number for a parity member. The tails the 2416 writes (R7): one beat, bytes 0 to 7 enabled; frame number,
position, verdict code and a count of 0; read back, they give what was written. The places of what is read. A field
of a burst lies in its beats, least significant byte first, and an address is the low 36 bits of its eight bytes; a
beat that is not there reads as zero, the model's choice (log 24). The configuration header, a channel word and a
plan block, byte by byte, and the configuration a header gives (R79, R93, R197, R207). The arena: where a slot, a
sector's page and a tail begin, which addresses lie in it, the slot, page and page offset an arena address resolves
to, and the positions a burst touches by payload and by tail (R1, R3, R4, R50). -/
def Obligations.FrameNumbersTailsAndWordsRead : Prop :=
  (∀ (grp : Group) (i : Nat),
     (i < grp.dataCount → (grp.expected i).toNat = (grp.firstFrame.toNat + i) % 2 ^ 32) ∧
     (grp.dataCount ≤ i → grp.expected i = grp.groupNumber)) ∧
  (∀ (f : Word32) (position : Nat) (v : Verdict), position < 65536 →
     (tailBeat f position v).enables = 0xFF#32 ∧
     Tail.ofBeat (tailBeat f position v).data =
       { frameNumber := f, sectorIndex := position, verdict := v, count := 0 } ∧
     Beat.field (tailBeat f position v).data 8 24 = 0) ∧
  (∀ (b : Beat) (bs : List Beat) (offset width : Nat),
      Beat.field b offset width = b.toNat / 2 ^ (8 * offset) % 2 ^ (8 * width) ∧
      beatsField bs offset width = Beat.field (bs.getD (offset / 32) 0) (offset % 32) width ∧
      addressField bs offset = beatsField bs offset 8 % 2 ^ 36) ∧
  (∀ bs : List Beat,
      let f := fun (beat offset width : Nat) => Beat.field (bs.getD beat 0) offset width
      Header.ofBeats bs = {
        arenaBase := f 0 0 8 % 2 ^ 36, slotCount := f 0 8 2, sectors := f 0 10 2, ringSize := f 0 12 2
        mode := f 0 14 1, ringInterrupt := (f 0 15 1).testBit 0, containedInterrupt := (f 0 15 1).testBit 1
        ringBase := f 0 16 8 % 2 ^ 36, tokenCeiling := f 0 24 2, refillAmount := f 0 26 2
        refillPeriod := f 0 28 2, holdLimit := f 0 30 2, wearThreshold := f 1 0 2, fillPattern := bs.getD 2 0 } ∧
      ChannelWord.ofBeats bs = { head := f 0 0 8 % 2 ^ 36, role := f 0 8 1, window := f 0 9 1 } ∧
      PlanBlock.ofBeats bs = {
        link := f 0 0 8 % 2 ^ 36, groupNumber := BitVec.ofNat 32 (f 0 24 4)
        firstFrame := BitVec.ofNat 32 (f 0 28 4), dataCount := f 1 0 1, parityCount := f 1 1 1
        signal := (f 1 2 1).testBit 0, last := (f 1 2 1).testBit 1, audit := (f 1 2 1).testBit 2
        policy := f 1 3 1, reach := f 1 4 1, rereadBudget := f 1 5 1, gatherLimit := f 1 6 2
        rereadLimit := f 1 8 2
        slots := (List.range 11).map (fun i => f 1 (10 + 2 * i) 2) ++
          (List.range 4).map (fun i => f 2 (2 * i) 2) }) ∧
  (∀ (h : Header) (n : Nat),
      h.configuration = {
        arenaBase := h.arenaBase, slotCount := h.slotCount, sectors := h.sectors, ringSize := h.ringSize
        mode := if h.mode = 0 then .strict else .fair
        ringInterrupt := h.ringInterrupt, containedInterrupt := h.containedInterrupt, ringBase := h.ringBase
        tokenCeiling := h.tokenCeiling, refillAmount := h.refillAmount, refillPeriod := h.refillPeriod
        holdLimit := h.holdLimit, wearThreshold := h.wearThreshold, fillPattern := h.fillPattern } ∧
      Role.ofCode n = if n = 1 then some .record else if n = 2 then some .restore else none) ∧
  (∀ (c : Configuration) (k q offset a length : Nat) (p : Place),
      let stride := (c.sectors + 1) * 4096
      c.slotStart k = c.arenaBase + k * stride ∧
      c.payloadAddr k q = c.slotStart k + q * 4096 ∧
      c.tailAddr k q = c.slotStart k + c.sectors * 4096 + q * 32 ∧
      (c.inArena a = true ↔ c.arenaBase ≤ a ∧ a < c.arenaBase + c.slotCount * stride) ∧
      (q ≤ c.sectors → offset < 4096 →
        c.resolve (c.arenaBase + k * stride + q * 4096 + offset) =
          { slot := k, page := if q < c.sectors then .payload q else .tail, offset := offset }) ∧
      (p.byPayload = some q ↔ p.page = .payload q) ∧
      (q ∈ c.byTail p length ↔ p.page = .tail ∧ q < c.sectors ∧ p.offset / 32 ≤ q ∧
        q < p.offset / 32 + length))

/-- The bytes of what the 2416 writes. The status word, in bytes 8 to 23, which alone are enabled: done, outcome,
error code, rounds, and eight counts held at 4095, two to three bytes, those of a RECORD group the two of R110 (R100,
R101, R110). The mirror's part beat and channel beat, a class's record beat, with its detail values packed from byte
16 on, and its next-set beat (R203, R208). A report entry: kind, channel, presence bits, qualifier, group number,
slot, value, frame number and up to four ranges, with the placement of each kind, and GROUP_DONE's own (R209). The
codes of fault kinds, member kinds, outcomes, channel states and error codes, and the class of each fault kind (R100,
R203, R208). A byte not listed is 0 (R208). That bytes 24 to 31 of a report entry are zero is the model's choice (log
48). -/
def Obligations.WrittenWordsHaveTheirFields : Prop :=
  (∀ (grp : Group) (o : GroupOutcome) (e : ErrorCode) (rounds : Nat),
     let w := statusBeat o e rounds grp.statusCounts
     let pair := fun (a b : Nat) => min a 4095 + 4096 * min b 4095
     w.enables = 0xFFFF00#32 ∧ Beat.field w.data 0 8 = 0 ∧ Beat.field w.data 24 8 = 0 ∧
     Beat.field w.data 8 1 = 1 ∧
     Beat.field w.data 9 1 = (match o with
       | .sealed => 1 | .sealedDegraded => 2 | .intact => 3 | .restored => 4 | .patched => 5 | .failed => 6
       | .abandoned => 7 | .rejected => 8) ∧
     Beat.field w.data 10 1 = (match e with
       | .none => 0 | .readError => 1 | .counts => 2 | .field => 3 | .slotRange => 4 | .slotRepeat => 5
       | .slotBusy => 6 | .align => 7) ∧
     Beat.field w.data 11 1 = rounds % 256 ∧
     (grp.role = .restore →
       Beat.field w.data 12 3 = pair grp.counts.damagedAtCheck grp.counts.rebuilt ∧
       Beat.field w.data 15 3 = pair grp.counts.concealed grp.counts.lost ∧
       Beat.field w.data 18 3 = pair grp.counts.transient grp.counts.persistent ∧
       Beat.field w.data 21 3 = pair grp.counts.silentFound grp.beyond.length) ∧
     (grp.role = .record →
       Beat.field w.data 12 3 = 0 ∧ Beat.field w.data 15 3 = pair 0 grp.madeLost ∧
       Beat.field w.data 18 3 = 0 ∧
       ∀ positions : List Nat, positions.Nodup →
         (∀ q, q ∈ positions ↔ ∃ m ∈ grp.members, q ∈ m.failed) →
         Beat.field w.data 21 3 = pair 0 positions.length)) ∧
  (∀ c : Control,
     Beat.field c.partBeat 0 1 = (match c.part with
       | .blank => 0 | .configured => 1 | .clearing => 2 | .faulted => 3) ∧
     Beat.field c.partBeat 1 1 = (match c.loadResult with
       | .none => 0 | .ok => 1 | .busy => 2 | .readError => 3 | .badGeometry => 4 | .badArena => 5
       | .badRing => 6 | .badField => 7) ∧
     Beat.field c.partBeat 2 2 = c.writeIndex % 65536 ∧
     Beat.field c.partBeat 4 1 = (if c.overflow then 1 else 0) ∧
     Beat.field c.partBeat 5 1 = (if c.takenRefused then 1 else 0) ∧ Beat.field c.partBeat 6 26 = 0) ∧
  (∀ c : Channel,
     Beat.field c.beat 0 1 = (match c.state with
       | .disabled => 0 | .loading => 1 | .active => 2 | .waiting => 3 | .draining => 4 | .stopped => 5
       | .closing => 6) ∧
     Beat.field c.beat 1 1 = (if c.state = .loading then 0 else 1) ∧
     Beat.field c.beat 2 1 = c.occupied % 256 ∧ Beat.field c.beat 3 1 = c.errorCode.code ∧
     Beat.field c.beat 4 1 = (match c.lastResult with
       | none => 0 | some .accepted => 1 | some .refusedState => 2 | some .unknown => 3 | some .blank => 4) ∧
     Beat.field c.beat 5 1 = 0 ∧ Beat.field c.beat 6 2 = c.plansLoaded.toNat ∧
     Beat.field c.beat 8 2 = c.groupsRetired.toNat ∧ Beat.field c.beat 10 2 = c.signals.toNat ∧
     Beat.field c.beat 12 20 = 0) ∧
  (∀ (l : FaultLog) (free : Beat),
     (l.first = none → Beat.field (l.recordBeat free) 0 1 = 0) ∧
     (∀ r, l.first = some r →
       let code := fun (e : ErrorCode) => match e with
         | .none => 0 | .readError => 1 | .counts => 2 | .field => 3 | .slotRange => 4 | .slotRepeat => 5
         | .slotBusy => 6 | .align => 7
       let job := fun (j : JobKind) => match j with
         | .seal => 0 | .audit => 1 | .rebuild => 2
       let member := fun (m : MemberKind) => match m with
         | .data => 0 | .parity j => (1 + j) % 256
       let report := fun (k : ReportKind) => match k with
         | .groupDone => 1 | .reread => 2 | .worn => 3 | .signal => 4 | .frameStale => 5 | .withdrawn => 6
         | .holdExpired => 7 | .channelState => 8 | .fault => 9
       let detail := fun (k : Nat) => Beat.field (l.recordBeat free) (16 + k) 1
       let address := Beat.field (l.recordBeat free) 16 5
       Beat.field (l.recordBeat free) 0 1 = 1 ∧ Beat.field (l.recordBeat free) 1 1 = (match r.kind with
         | .planError => 1 | .holdExpired => 2 | .holdOverflow => 3 | .ringOverflow => 4
         | .engineReadError => 5 | .engineWriteError => 6 | .serviceWriteError => 7 | .concealFull => 8
         | .malformed => 9 | .mapParity => 10 | .mapMembership => 11 | .groupTableParity => 12
         | .concealTableParity => 13) ∧
       (∀ d, r.detail = some d → match d with
         | .errorCode e => detail 0 = code e
         | .request t k => detail 0 = t % 256 ∧ detail 1 = (if k = .read then 0 else 1)
         | .report k => detail 0 = report k
         | .engineRead j m => detail 0 = job j ∧ detail 1 = member m
         | .engineWrite j m tail => detail 0 = job j ∧ detail 1 = member m ∧
             detail 2 = (if tail then 1 else 0)
         | .planAddress a => address = a % 2 ^ 40
         | .room n f => detail 0 = n % 256 ∧ detail 1 = f % 256
         | .malformed a t => address = a % 2 ^ 40 ∧ detail 5 = t % 256
         | .members n => detail 0 = n % 256
         | .groupIndex i => detail 0 = i % 256) ∧
       Beat.field (l.recordBeat free) 3 1 =
         (if r.channel.isSome then 1 else 0) + (if r.groupNumber.isSome then 2 else 0) +
         (if r.slot.isSome then 4 else 0) + (if r.sector.isSome then 8 else 0) +
         (if r.detail.isSome then 16 else 0) ∧
       (∀ c, r.channel = some c → Beat.field (l.recordBeat free) 2 1 = c.val) ∧
       (∀ g, r.groupNumber = some g → Beat.field (l.recordBeat free) 4 4 = g.toNat) ∧
       (∀ k, r.slot = some k → Beat.field (l.recordBeat free) 8 2 = k % 65536) ∧
       (∀ k, r.sector = some k → Beat.field (l.recordBeat free) 10 2 = k % 65536)) ∧
     Beat.field (l.recordBeat free) 12 4 = 0 ∧ Beat.field (l.recordBeat free) 24 8 = 0 ∧
     (∀ k : FaultKind, (Beat.field l.nextBeat 0 2).testBit (match k with
         | .planError => 1 | .holdExpired => 2 | .holdOverflow => 3 | .ringOverflow => 4
         | .engineReadError => 5 | .engineWriteError => 6 | .serviceWriteError => 7 | .concealFull => 8
         | .malformed => 9 | .mapParity => 10 | .mapMembership => 11 | .groupTableParity => 12
         | .concealTableParity => 13) = decide (k ∈ l.next)) ∧
     (Beat.field l.nextBeat 0 2).testBit 0 = false ∧ (Beat.field l.nextBeat 0 2).testBit 14 = false ∧
     (Beat.field l.nextBeat 0 2).testBit 15 = false ∧
     Beat.field l.nextBeat 2 30 = 0) ∧
  (∀ (channel : Option (Fin 8)) (kind : ReportKind) (e : EntryFields),
     let b := packEntry kind channel e
     Beat.field b 0 1 = (match kind with
       | .groupDone => 1 | .reread => 2 | .worn => 3 | .signal => 4 | .frameStale => 5 | .withdrawn => 6
       | .holdExpired => 7 | .channelState => 8 | .fault => 9) ∧
     Beat.field b 1 1 = (channel.map (·.val)).getD 0 ∧
     Beat.field b 2 1 =
       (if channel.isSome then 1 else 0) + (if e.groupNumber.isSome then 2 else 0) +
       (if e.slot.isSome then 4 else 0) + (if e.frame.isSome then 8 else 0) +
       (if e.ranges = [] then 0 else 16) ∧
     Beat.field b 3 1 = e.qualifier % 256 ∧ Beat.field b 4 4 = (e.groupNumber.map (·.toNat)).getD 0 ∧
     Beat.field b 8 2 = e.slot.getD 0 % 65536 ∧ Beat.field b 10 2 = e.value % 65536 ∧
     Beat.field b 12 4 = (e.frame.map (·.toNat)).getD 0 ∧
     (e.ranges.length ≤ 4 →
       (∀ i r, e.ranges[i]? = some r →
         Beat.field b (16 + 2 * i) 1 = r.first % 256 ∧ Beat.field b (17 + 2 * i) 1 = r.count % 256) ∧
       Beat.field b (16 + 2 * e.ranges.length) (16 - 2 * e.ranges.length) = 0)) ∧
  (∀ (c : Fin 8) (gn : Word32) (o : GroupOutcome) (rounds : Nat) (counts : List Nat) (misplaced worn : Nat),
     let b := Report.beat (.groupDone c gn o rounds counts misplaced worn)
     Beat.field b 0 1 = 1 ∧ Beat.field b 1 1 = c.val ∧ Beat.field b 2 1 = 3 ∧ Beat.field b 3 1 = o.code ∧
     Beat.field b 4 4 = gn.toNat ∧ Beat.field b 8 2 = misplaced % 65536 ∧
     Beat.field b 10 1 = rounds % 256 ∧ Beat.field b 11 1 = worn % 256 ∧
     (∀ i, i < 4 → Beat.field b (12 + 3 * i) 3 =
       (counts.getD (2 * i) 0 + 4096 * counts.getD (2 * i + 1) 0) % 2 ^ 24) ∧
     Beat.field b 24 8 = 0) ∧
  (∀ (c : Fin 8) (gn f : Word32) (slot n : Nat) (k : MemberKind) (ranges : List SectorRange)
     (ch : Option (Fin 8)) (kd : Option MemberKind) (fr g : Option Word32) (w : Bool)
     (range : Option SectorRange) (st : ChannelState) (er : ErrorCode) (cl : FaultClass) (fk : FaultKind)
     (sl sec : Option Nat),
     Report.beat (.reread c gn slot k f n ranges) = packEntry .reread (some c)
       { qualifier := k.code, groupNumber := some gn, slot := some slot, value := n, frame := some f
         ranges := ranges } ∧
     Report.beat (.worn c gn slot k f n) = packEntry .worn (some c)
       { qualifier := k.code, groupNumber := some gn, slot := some slot, value := n, frame := some f
         ranges := [] } ∧
     Report.beat (.signal c gn f) = packEntry .signal (some c)
       { qualifier := 0, groupNumber := some gn, slot := none, value := 0, frame := some f, ranges := [] } ∧
     Report.beat (.frameStale slot ch kd fr g w) = packEntry .frameStale ch
       { qualifier := (kd.map MemberKind.code).getD 0, groupNumber := g, slot := some slot
         value := if w then 1 else 0, frame := fr, ranges := [] } ∧
     Report.beat (.withdrawn slot ranges ch g fr) = packEntry .withdrawn ch
       { qualifier := 0, groupNumber := g, slot := some slot, value := 0, frame := fr, ranges := ranges } ∧
     Report.beat (.holdExpired slot range ch g) = packEntry .holdExpired ch
       { qualifier := 0, groupNumber := g, slot := some slot, value := 0, frame := none
         ranges := range.toList } ∧
     Report.beat (.channelState c st er) = packEntry .channelState (some c)
       { qualifier := st.code, groupNumber := none, slot := none, value := er.code, frame := none
         ranges := [] } ∧
     Report.beat (.fault cl fk ch g sl sec) = packEntry .fault ch
       { qualifier := if cl = .contained then 0 else 1, groupNumber := g, slot := sl, value := fk.code
         frame := none, ranges := (sec.map (fun q => { first := q, count := 1 })).toList }) ∧
  (∀ (k : FaultKind) (m : MemberKind) (o : GroupOutcome) (st : ChannelState) (e : ErrorCode),
     k.code = (match k with
       | .planError => 1 | .holdExpired => 2 | .holdOverflow => 3 | .ringOverflow => 4
       | .engineReadError => 5 | .engineWriteError => 6 | .serviceWriteError => 7 | .concealFull => 8
       | .malformed => 9 | .mapParity => 10 | .mapMembership => 11 | .groupTableParity => 12
       | .concealTableParity => 13) ∧
     (k.faultClass = .uncontained ↔
       k = .mapMembership ∨ k = .groupTableParity ∨ k = .concealTableParity) ∧
     m.code = (match m with
       | .data => 0 | .parity j => 1 + j) ∧
     o.code = (match o with
       | .sealed => 1 | .sealedDegraded => 2 | .intact => 3 | .restored => 4 | .patched => 5 | .failed => 6
       | .abandoned => 7 | .rejected => 8) ∧
     st.code = (match st with
       | .disabled => 0 | .loading => 1 | .active => 2 | .waiting => 3 | .draining => 4 | .stopped => 5
       | .closing => 6) ∧
     e.code = (match e with
       | .none => 0 | .readError => 1 | .counts => 2 | .field => 3 | .slotRange => 4 | .slotRepeat => 5
       | .slotBusy => 6 | .align => 7))

/-- Any D members of a group determine the others (R15, R154): from the bytes of any D distinct members, data and
parity, of data whose parity is that of R14, the engine's computation gives every member's byte. -/
def Obligations.RebuildRecoversEveryMember : Prop :=
  ∀ (data : List Byte) (p : Nat) (chosen : List Nat), 2 ≤ data.length → data.length ≤ 12 → p ≤ 3 →
    chosen.Pairwise (· < ·) → chosen.length = data.length → (∀ m ∈ chosen, m < data.length + p) →
    let member := fun m => if m < data.length then data.getD m 0 else parityByte (m - data.length) data
    ∀ m, m < data.length + p →
      memberByte data.length (chosen.map (fun k => (k, member k))) m = member m

/-- A column of syndromes is zero when the stored parity is that of the data; when exactly one member differs and P
is 2 or 3, it indicates that member (R149). -/
def Obligations.SyndromeIndicatesTheWrongMember : Prop :=
  ∀ (data : List Byte) (p w : Nat) (e : Byte), 2 ≤ data.length → data.length ≤ 12 → 2 ≤ p → p ≤ 3 →
    w < data.length + p →
    let good := data ++ (List.range p).map (fun j => parityByte j data)
    syndromeColumn data.length p good = List.replicate p 0 ∧
    (e ≠ 0 → columnIndicates data.length p
      (syndromeColumn data.length p (good.modify w (· ^^^ e))) = some w)
end

