-- ==== Sys2Proof/Laws/State.lean ====
section
/-! SUPPORT. What each named update of the state leaves in each field, one lemma per field, so that no proof unfolds a
record update. -/
namespace Sys2Proof.Machine

variable (s : State)

/-! ### push -/
@[simp] theorem push_pins (ts : List Task) : (s.push ts).pins = s.pins := rfl
@[simp] theorem push_port (ts : List Task) : (s.push ts).port = s.port := rfl
@[simp] theorem push_map (ts : List Task) : (s.push ts).map = s.map := rfl
@[simp] theorem push_groups (ts : List Task) : (s.push ts).groups = s.groups := rfl
@[simp] theorem push_holds (ts : List Task) : (s.push ts).holds = s.holds := rfl
@[simp] theorem push_engine (ts : List Task) : (s.push ts).engine = s.engine := rfl
@[simp] theorem push_conceal (ts : List Task) : (s.push ts).conceal = s.conceal := rfl
@[simp] theorem push_channels (ts : List Task) : (s.push ts).channels = s.channels := rfl
@[simp] theorem push_memPort (ts : List Task) : (s.push ts).memPort = s.memPort := rfl
@[simp] theorem push_control (ts : List Task) : (s.push ts).control = s.control := rfl
@[simp] theorem push_time (ts : List Task) : (s.push ts).time = s.time := rfl
@[simp] theorem push_drawn (ts : List Task) : (s.push ts).drawn = s.drawn := rfl
@[simp] theorem push_upsets (ts : List Task) : (s.push ts).upsets = s.upsets := rfl
@[simp] theorem push_agenda (ts : List Task) : (s.push ts).agenda =
    ts ++ s.agenda := rfl
@[simp] theorem push_pending (ts : List Task) : (s.push ts).pending = s.pending := rfl

/-! ### pushBehind -/
@[simp] theorem pushBehind_pins (ts : List Task) : (s.pushBehind ts).pins = s.pins := rfl
@[simp] theorem pushBehind_port (ts : List Task) : (s.pushBehind ts).port = s.port := rfl
@[simp] theorem pushBehind_map (ts : List Task) : (s.pushBehind ts).map = s.map := rfl
@[simp] theorem pushBehind_groups (ts : List Task) : (s.pushBehind ts).groups = s.groups := rfl
@[simp] theorem pushBehind_holds (ts : List Task) : (s.pushBehind ts).holds = s.holds := rfl
@[simp] theorem pushBehind_engine (ts : List Task) : (s.pushBehind ts).engine = s.engine := rfl
@[simp] theorem pushBehind_conceal (ts : List Task) : (s.pushBehind ts).conceal = s.conceal := rfl
@[simp] theorem pushBehind_channels (ts : List Task) : (s.pushBehind ts).channels = s.channels := rfl
@[simp] theorem pushBehind_memPort (ts : List Task) : (s.pushBehind ts).memPort = s.memPort := rfl
@[simp] theorem pushBehind_control (ts : List Task) : (s.pushBehind ts).control = s.control := rfl
@[simp] theorem pushBehind_time (ts : List Task) : (s.pushBehind ts).time = s.time := rfl
@[simp] theorem pushBehind_drawn (ts : List Task) : (s.pushBehind ts).drawn = s.drawn := rfl
@[simp] theorem pushBehind_upsets (ts : List Task) : (s.pushBehind ts).upsets = s.upsets := rfl
@[simp] theorem pushBehind_agenda (ts : List Task) : (s.pushBehind ts).agenda =
    behindPresent ts s.agenda := rfl
@[simp] theorem pushBehind_pending (ts : List Task) : (s.pushBehind ts).pending = s.pending := rfl

/-! ### draw -/
@[simp] theorem draw_pins : (s.draw).pins = s.pins := rfl
@[simp] theorem draw_port : (s.draw).port = s.port := rfl
@[simp] theorem draw_map : (s.draw).map = s.map := rfl
@[simp] theorem draw_groups : (s.draw).groups = s.groups := rfl
@[simp] theorem draw_holds : (s.draw).holds = s.holds := rfl
@[simp] theorem draw_engine : (s.draw).engine = s.engine := rfl
@[simp] theorem draw_conceal : (s.draw).conceal = s.conceal := rfl
@[simp] theorem draw_channels : (s.draw).channels = s.channels := rfl
@[simp] theorem draw_memPort : (s.draw).memPort = s.memPort := rfl
@[simp] theorem draw_control : (s.draw).control = s.control := rfl
@[simp] theorem draw_time : (s.draw).time = s.time := rfl
@[simp] theorem draw_drawn : (s.draw).drawn =
    s.drawn + 1 := rfl
@[simp] theorem draw_upsets : (s.draw).upsets = s.upsets := rfl
@[simp] theorem draw_agenda : (s.draw).agenda = s.agenda := rfl
@[simp] theorem draw_pending : (s.draw).pending = s.pending := rfl

/-! ### putFrame -/
@[simp] theorem putFrame_pins (k : Nat) (e : FrameEntry) : (s.putFrame k e).pins = s.pins := rfl
@[simp] theorem putFrame_port (k : Nat) (e : FrameEntry) : (s.putFrame k e).port = s.port := rfl
@[simp] theorem putFrame_groups (k : Nat) (e : FrameEntry) : (s.putFrame k e).groups = s.groups := rfl
@[simp] theorem putFrame_holds (k : Nat) (e : FrameEntry) : (s.putFrame k e).holds = s.holds := rfl
@[simp] theorem putFrame_engine (k : Nat) (e : FrameEntry) : (s.putFrame k e).engine = s.engine := rfl
@[simp] theorem putFrame_conceal (k : Nat) (e : FrameEntry) : (s.putFrame k e).conceal = s.conceal := rfl
@[simp] theorem putFrame_channels (k : Nat) (e : FrameEntry) : (s.putFrame k e).channels = s.channels := rfl
@[simp] theorem putFrame_memPort (k : Nat) (e : FrameEntry) : (s.putFrame k e).memPort = s.memPort := rfl
@[simp] theorem putFrame_control (k : Nat) (e : FrameEntry) : (s.putFrame k e).control = s.control := rfl
@[simp] theorem putFrame_time (k : Nat) (e : FrameEntry) : (s.putFrame k e).time = s.time := rfl
@[simp] theorem putFrame_drawn (k : Nat) (e : FrameEntry) : (s.putFrame k e).drawn = s.drawn := rfl
@[simp] theorem putFrame_upsets (k : Nat) (e : FrameEntry) : (s.putFrame k e).upsets = s.upsets := rfl
@[simp] theorem putFrame_agenda (k : Nat) (e : FrameEntry) : (s.putFrame k e).agenda = s.agenda := rfl
@[simp] theorem putFrame_pending (k : Nat) (e : FrameEntry) : (s.putFrame k e).pending = s.pending := rfl

/-! ### putGroup -/
@[simp] theorem putGroup_pins (g : Nat) (x : Group) : (s.putGroup g x).pins = s.pins := rfl
@[simp] theorem putGroup_port (g : Nat) (x : Group) : (s.putGroup g x).port = s.port := rfl
@[simp] theorem putGroup_map (g : Nat) (x : Group) : (s.putGroup g x).map = s.map := rfl
@[simp] theorem putGroup_groups (g : Nat) (x : Group) : (s.putGroup g x).groups =
    { s.groups with entries := Table.put g { x with checkOk := true } s.groups.entries } := rfl
@[simp] theorem putGroup_holds (g : Nat) (x : Group) : (s.putGroup g x).holds = s.holds := rfl
@[simp] theorem putGroup_engine (g : Nat) (x : Group) : (s.putGroup g x).engine = s.engine := rfl
@[simp] theorem putGroup_conceal (g : Nat) (x : Group) : (s.putGroup g x).conceal = s.conceal := rfl
@[simp] theorem putGroup_channels (g : Nat) (x : Group) : (s.putGroup g x).channels = s.channels := rfl
@[simp] theorem putGroup_memPort (g : Nat) (x : Group) : (s.putGroup g x).memPort = s.memPort := rfl
@[simp] theorem putGroup_control (g : Nat) (x : Group) : (s.putGroup g x).control = s.control := rfl
@[simp] theorem putGroup_time (g : Nat) (x : Group) : (s.putGroup g x).time = s.time := rfl
@[simp] theorem putGroup_drawn (g : Nat) (x : Group) : (s.putGroup g x).drawn = s.drawn := rfl
@[simp] theorem putGroup_upsets (g : Nat) (x : Group) : (s.putGroup g x).upsets = s.upsets := rfl
@[simp] theorem putGroup_agenda (g : Nat) (x : Group) : (s.putGroup g x).agenda = s.agenda := rfl
@[simp] theorem putGroup_pending (g : Nat) (x : Group) : (s.putGroup g x).pending = s.pending := rfl

/-! ### dropGroup -/
@[simp] theorem dropGroup_pins (g : Nat) : (s.dropGroup g).pins = s.pins := rfl
@[simp] theorem dropGroup_port (g : Nat) : (s.dropGroup g).port = s.port := rfl
@[simp] theorem dropGroup_map (g : Nat) : (s.dropGroup g).map = s.map := rfl
@[simp] theorem dropGroup_groups (g : Nat) : (s.dropGroup g).groups =
    { s.groups with entries := Table.remove g s.groups.entries } := rfl
@[simp] theorem dropGroup_holds (g : Nat) : (s.dropGroup g).holds = s.holds := rfl
@[simp] theorem dropGroup_engine (g : Nat) : (s.dropGroup g).engine = s.engine := rfl
@[simp] theorem dropGroup_conceal (g : Nat) : (s.dropGroup g).conceal = s.conceal := rfl
@[simp] theorem dropGroup_channels (g : Nat) : (s.dropGroup g).channels = s.channels := rfl
@[simp] theorem dropGroup_memPort (g : Nat) : (s.dropGroup g).memPort = s.memPort := rfl
@[simp] theorem dropGroup_control (g : Nat) : (s.dropGroup g).control = s.control := rfl
@[simp] theorem dropGroup_time (g : Nat) : (s.dropGroup g).time = s.time := rfl
@[simp] theorem dropGroup_drawn (g : Nat) : (s.dropGroup g).drawn = s.drawn := rfl
@[simp] theorem dropGroup_upsets (g : Nat) : (s.dropGroup g).upsets = s.upsets := rfl
@[simp] theorem dropGroup_agenda (g : Nat) : (s.dropGroup g).agenda = s.agenda := rfl
@[simp] theorem dropGroup_pending (g : Nat) : (s.dropGroup g).pending = s.pending := rfl

/-! ### putAccepted -/
@[simp] theorem putAccepted_pins (t : Nat) (a : Accepted) : (s.putAccepted t a).pins = s.pins := rfl
@[simp] theorem putAccepted_port (t : Nat) (a : Accepted) : (s.putAccepted t a).port =
    { s.port with accepted := Table.put t a s.port.accepted } := rfl
@[simp] theorem putAccepted_map (t : Nat) (a : Accepted) : (s.putAccepted t a).map = s.map := rfl
@[simp] theorem putAccepted_groups (t : Nat) (a : Accepted) : (s.putAccepted t a).groups = s.groups := rfl
@[simp] theorem putAccepted_holds (t : Nat) (a : Accepted) : (s.putAccepted t a).holds = s.holds := rfl
@[simp] theorem putAccepted_engine (t : Nat) (a : Accepted) : (s.putAccepted t a).engine = s.engine := rfl
@[simp] theorem putAccepted_conceal (t : Nat) (a : Accepted) : (s.putAccepted t a).conceal = s.conceal := rfl
@[simp] theorem putAccepted_channels (t : Nat) (a : Accepted) : (s.putAccepted t a).channels = s.channels := rfl
@[simp] theorem putAccepted_memPort (t : Nat) (a : Accepted) : (s.putAccepted t a).memPort = s.memPort := rfl
@[simp] theorem putAccepted_control (t : Nat) (a : Accepted) : (s.putAccepted t a).control = s.control := rfl
@[simp] theorem putAccepted_time (t : Nat) (a : Accepted) : (s.putAccepted t a).time = s.time := rfl
@[simp] theorem putAccepted_drawn (t : Nat) (a : Accepted) : (s.putAccepted t a).drawn = s.drawn := rfl
@[simp] theorem putAccepted_upsets (t : Nat) (a : Accepted) : (s.putAccepted t a).upsets = s.upsets := rfl
@[simp] theorem putAccepted_agenda (t : Nat) (a : Accepted) : (s.putAccepted t a).agenda = s.agenda := rfl
@[simp] theorem putAccepted_pending (t : Nat) (a : Accepted) : (s.putAccepted t a).pending = s.pending := rfl

/-! ### send -/
@[simp] theorem send_pins (r : Response) : (s.send r).pins = s.pins := rfl
@[simp] theorem send_port (r : Response) : (s.send r).port =
    { s.port with sent := s.port.sent ++ [r] } := rfl
@[simp] theorem send_map (r : Response) : (s.send r).map = s.map := rfl
@[simp] theorem send_groups (r : Response) : (s.send r).groups = s.groups := rfl
@[simp] theorem send_holds (r : Response) : (s.send r).holds = s.holds := rfl
@[simp] theorem send_engine (r : Response) : (s.send r).engine = s.engine := rfl
@[simp] theorem send_conceal (r : Response) : (s.send r).conceal = s.conceal := rfl
@[simp] theorem send_channels (r : Response) : (s.send r).channels = s.channels := rfl
@[simp] theorem send_memPort (r : Response) : (s.send r).memPort = s.memPort := rfl
@[simp] theorem send_control (r : Response) : (s.send r).control = s.control := rfl
@[simp] theorem send_time (r : Response) : (s.send r).time = s.time := rfl
@[simp] theorem send_drawn (r : Response) : (s.send r).drawn = s.drawn := rfl
@[simp] theorem send_upsets (r : Response) : (s.send r).upsets = s.upsets := rfl
@[simp] theorem send_agenda (r : Response) : (s.send r).agenda = s.agenda := rfl
@[simp] theorem send_pending (r : Response) : (s.send r).pending = s.pending := rfl

/-! ### respond -/
@[simp] theorem respond_pins (t : Nat) (st : ResponseStatus) (bs : List Beat) : (s.respond t st bs).pins = s.pins := rfl
@[simp] theorem respond_port (t : Nat) (st : ResponseStatus) (bs : List Beat) : (s.respond t st bs).port =
    { s.port with accepted := Table.remove t s.port.accepted, sent := s.port.sent ++ [{ tag := t, status := st, beats := bs }] } := rfl
@[simp] theorem respond_map (t : Nat) (st : ResponseStatus) (bs : List Beat) : (s.respond t st bs).map = s.map := rfl
@[simp] theorem respond_groups (t : Nat) (st : ResponseStatus) (bs : List Beat) : (s.respond t st bs).groups = s.groups := rfl
@[simp] theorem respond_holds (t : Nat) (st : ResponseStatus) (bs : List Beat) : (s.respond t st bs).holds = s.holds := rfl
@[simp] theorem respond_engine (t : Nat) (st : ResponseStatus) (bs : List Beat) : (s.respond t st bs).engine = s.engine := rfl
@[simp] theorem respond_conceal (t : Nat) (st : ResponseStatus) (bs : List Beat) : (s.respond t st bs).conceal = s.conceal := rfl
@[simp] theorem respond_channels (t : Nat) (st : ResponseStatus) (bs : List Beat) : (s.respond t st bs).channels = s.channels := rfl
@[simp] theorem respond_memPort (t : Nat) (st : ResponseStatus) (bs : List Beat) : (s.respond t st bs).memPort = s.memPort := rfl
@[simp] theorem respond_control (t : Nat) (st : ResponseStatus) (bs : List Beat) : (s.respond t st bs).control = s.control := rfl
@[simp] theorem respond_time (t : Nat) (st : ResponseStatus) (bs : List Beat) : (s.respond t st bs).time = s.time := rfl
@[simp] theorem respond_drawn (t : Nat) (st : ResponseStatus) (bs : List Beat) : (s.respond t st bs).drawn = s.drawn := rfl
@[simp] theorem respond_upsets (t : Nat) (st : ResponseStatus) (bs : List Beat) : (s.respond t st bs).upsets = s.upsets := rfl
@[simp] theorem respond_agenda (t : Nat) (st : ResponseStatus) (bs : List Beat) : (s.respond t st bs).agenda = s.agenda := rfl
@[simp] theorem respond_pending (t : Nat) (st : ResponseStatus) (bs : List Beat) : (s.respond t st bs).pending = s.pending := rfl

/-! ### fenceSlots -/
@[simp] theorem fenceSlots_pins (ks : List Nat) : (s.fenceSlots ks).pins = s.pins := rfl
@[simp] theorem fenceSlots_map (ks : List Nat) : (s.fenceSlots ks).map = s.map := rfl
@[simp] theorem fenceSlots_groups (ks : List Nat) : (s.fenceSlots ks).groups = s.groups := rfl
@[simp] theorem fenceSlots_holds (ks : List Nat) : (s.fenceSlots ks).holds = s.holds := rfl
@[simp] theorem fenceSlots_engine (ks : List Nat) : (s.fenceSlots ks).engine = s.engine := rfl
@[simp] theorem fenceSlots_conceal (ks : List Nat) : (s.fenceSlots ks).conceal = s.conceal := rfl
@[simp] theorem fenceSlots_channels (ks : List Nat) : (s.fenceSlots ks).channels = s.channels := rfl
@[simp] theorem fenceSlots_memPort (ks : List Nat) : (s.fenceSlots ks).memPort = s.memPort := rfl
@[simp] theorem fenceSlots_control (ks : List Nat) : (s.fenceSlots ks).control = s.control := rfl
@[simp] theorem fenceSlots_time (ks : List Nat) : (s.fenceSlots ks).time = s.time := rfl
@[simp] theorem fenceSlots_drawn (ks : List Nat) : (s.fenceSlots ks).drawn = s.drawn := rfl
@[simp] theorem fenceSlots_upsets (ks : List Nat) : (s.fenceSlots ks).upsets = s.upsets := rfl
@[simp] theorem fenceSlots_agenda (ks : List Nat) : (s.fenceSlots ks).agenda = s.agenda := rfl
@[simp] theorem fenceSlots_pending (ks : List Nat) : (s.fenceSlots ks).pending = s.pending := rfl

/-! ### setContext -/
@[simp] theorem setContext_pins (f : PositionContext → PositionContext) : (s.setContext f).pins = s.pins := rfl
@[simp] theorem setContext_port (f : PositionContext → PositionContext) : (s.setContext f).port = s.port := rfl
@[simp] theorem setContext_map (f : PositionContext → PositionContext) : (s.setContext f).map = s.map := rfl
@[simp] theorem setContext_groups (f : PositionContext → PositionContext) : (s.setContext f).groups = s.groups := rfl
@[simp] theorem setContext_holds (f : PositionContext → PositionContext) : (s.setContext f).holds = s.holds := rfl
@[simp] theorem setContext_engine (f : PositionContext → PositionContext) : (s.setContext f).engine =
    { s.engine with context := f s.engine.context } := rfl
@[simp] theorem setContext_conceal (f : PositionContext → PositionContext) : (s.setContext f).conceal = s.conceal := rfl
@[simp] theorem setContext_channels (f : PositionContext → PositionContext) : (s.setContext f).channels = s.channels := rfl
@[simp] theorem setContext_memPort (f : PositionContext → PositionContext) : (s.setContext f).memPort = s.memPort := rfl
@[simp] theorem setContext_control (f : PositionContext → PositionContext) : (s.setContext f).control = s.control := rfl
@[simp] theorem setContext_time (f : PositionContext → PositionContext) : (s.setContext f).time = s.time := rfl
@[simp] theorem setContext_drawn (f : PositionContext → PositionContext) : (s.setContext f).drawn = s.drawn := rfl
@[simp] theorem setContext_upsets (f : PositionContext → PositionContext) : (s.setContext f).upsets = s.upsets := rfl
@[simp] theorem setContext_agenda (f : PositionContext → PositionContext) : (s.setContext f).agenda = s.agenda := rfl
@[simp] theorem setContext_pending (f : PositionContext → PositionContext) : (s.setContext f).pending = s.pending := rfl

/-! ### endService -/
@[simp] theorem endService_pins : (s.endService).pins = s.pins := rfl
@[simp] theorem endService_port : (s.endService).port = s.port := rfl
@[simp] theorem endService_map : (s.endService).map = s.map := rfl
@[simp] theorem endService_groups : (s.endService).groups = s.groups := rfl
@[simp] theorem endService_holds : (s.endService).holds = s.holds := rfl
@[simp] theorem endService_engine : (s.endService).engine =
    { s.engine with state := .idle, service := none, cursor := none, context := PositionContext.empty } := rfl
@[simp] theorem endService_conceal : (s.endService).conceal = s.conceal := rfl
@[simp] theorem endService_channels : (s.endService).channels = s.channels := rfl
@[simp] theorem endService_memPort : (s.endService).memPort = s.memPort := rfl
@[simp] theorem endService_control : (s.endService).control = s.control := rfl
@[simp] theorem endService_time : (s.endService).time = s.time := rfl
@[simp] theorem endService_drawn : (s.endService).drawn = s.drawn := rfl
@[simp] theorem endService_upsets : (s.endService).upsets = s.upsets := rfl
@[simp] theorem endService_agenda : (s.endService).agenda = s.agenda := rfl
@[simp] theorem endService_pending : (s.endService).pending = s.pending := rfl

/-! ### offerPromotion -/
@[simp] theorem offerPromotion_pins (g : Nat) : (s.offerPromotion g).pins = s.pins := rfl
@[simp] theorem offerPromotion_port (g : Nat) : (s.offerPromotion g).port = s.port := rfl
@[simp] theorem offerPromotion_map (g : Nat) : (s.offerPromotion g).map = s.map := rfl
@[simp] theorem offerPromotion_groups (g : Nat) : (s.offerPromotion g).groups = s.groups := rfl
@[simp] theorem offerPromotion_holds (g : Nat) : (s.offerPromotion g).holds = s.holds := rfl
@[simp] theorem offerPromotion_engine (g : Nat) : (s.offerPromotion g).engine =
    { s.engine with queue := promoteJob g s.engine.queue } := rfl
@[simp] theorem offerPromotion_conceal (g : Nat) : (s.offerPromotion g).conceal = s.conceal := rfl
@[simp] theorem offerPromotion_channels (g : Nat) : (s.offerPromotion g).channels = s.channels := rfl
@[simp] theorem offerPromotion_memPort (g : Nat) : (s.offerPromotion g).memPort = s.memPort := rfl
@[simp] theorem offerPromotion_control (g : Nat) : (s.offerPromotion g).control = s.control := rfl
@[simp] theorem offerPromotion_time (g : Nat) : (s.offerPromotion g).time = s.time := rfl
@[simp] theorem offerPromotion_drawn (g : Nat) : (s.offerPromotion g).drawn = s.drawn := rfl
@[simp] theorem offerPromotion_upsets (g : Nat) : (s.offerPromotion g).upsets = s.upsets := rfl
@[simp] theorem offerPromotion_agenda (g : Nat) : (s.offerPromotion g).agenda = s.agenda := rfl
@[simp] theorem offerPromotion_pending (g : Nat) : (s.offerPromotion g).pending = s.pending := rfl

/-! ### dropJob -/
@[simp] theorem dropJob_pins (g : Nat) : (s.dropJob g).pins = s.pins := rfl
@[simp] theorem dropJob_port (g : Nat) : (s.dropJob g).port = s.port := rfl
@[simp] theorem dropJob_map (g : Nat) : (s.dropJob g).map = s.map := rfl
@[simp] theorem dropJob_groups (g : Nat) : (s.dropJob g).groups = s.groups := rfl
@[simp] theorem dropJob_holds (g : Nat) : (s.dropJob g).holds = s.holds := rfl
@[simp] theorem dropJob_engine (g : Nat) : (s.dropJob g).engine =
    { s.engine with queue := s.engine.queue.filter (fun j => j.group != g) } := rfl
@[simp] theorem dropJob_conceal (g : Nat) : (s.dropJob g).conceal = s.conceal := rfl
@[simp] theorem dropJob_channels (g : Nat) : (s.dropJob g).channels = s.channels := rfl
@[simp] theorem dropJob_memPort (g : Nat) : (s.dropJob g).memPort = s.memPort := rfl
@[simp] theorem dropJob_control (g : Nat) : (s.dropJob g).control = s.control := rfl
@[simp] theorem dropJob_time (g : Nat) : (s.dropJob g).time = s.time := rfl
@[simp] theorem dropJob_drawn (g : Nat) : (s.dropJob g).drawn = s.drawn := rfl
@[simp] theorem dropJob_upsets (g : Nat) : (s.dropJob g).upsets = s.upsets := rfl
@[simp] theorem dropJob_agenda (g : Nat) : (s.dropJob g).agenda = s.agenda := rfl
@[simp] theorem dropJob_pending (g : Nat) : (s.dropJob g).pending = s.pending := rfl

/-! ### emptyEngine -/
@[simp] theorem emptyEngine_pins : (s.emptyEngine).pins = s.pins := rfl
@[simp] theorem emptyEngine_port : (s.emptyEngine).port = s.port := rfl
@[simp] theorem emptyEngine_map : (s.emptyEngine).map = s.map := rfl
@[simp] theorem emptyEngine_groups : (s.emptyEngine).groups = s.groups := rfl
@[simp] theorem emptyEngine_holds : (s.emptyEngine).holds = s.holds := rfl
@[simp] theorem emptyEngine_engine : (s.emptyEngine).engine =
    { s.endService.engine with queue := [], inFlight := [] } := rfl
@[simp] theorem emptyEngine_conceal : (s.emptyEngine).conceal = s.conceal := rfl
@[simp] theorem emptyEngine_channels : (s.emptyEngine).channels = s.channels := rfl
@[simp] theorem emptyEngine_memPort : (s.emptyEngine).memPort = s.memPort := rfl
@[simp] theorem emptyEngine_control : (s.emptyEngine).control = s.control := rfl
@[simp] theorem emptyEngine_time : (s.emptyEngine).time = s.time := rfl
@[simp] theorem emptyEngine_drawn : (s.emptyEngine).drawn = s.drawn := rfl
@[simp] theorem emptyEngine_upsets : (s.emptyEngine).upsets = s.upsets := rfl
@[simp] theorem emptyEngine_agenda : (s.emptyEngine).agenda = s.agenda := rfl
@[simp] theorem emptyEngine_pending : (s.emptyEngine).pending = s.pending := rfl

/-! ### leaveHolds -/
@[simp] theorem leaveHolds_pins (t : Nat) : (s.leaveHolds t).pins = s.pins := rfl
@[simp] theorem leaveHolds_port (t : Nat) : (s.leaveHolds t).port = s.port := rfl
@[simp] theorem leaveHolds_map (t : Nat) : (s.leaveHolds t).map = s.map := rfl
@[simp] theorem leaveHolds_holds (t : Nat) : (s.leaveHolds t).holds =
    s.holds.filter (fun h => h.tag != t) := rfl
@[simp] theorem leaveHolds_groups (t : Nat) : (s.leaveHolds t).groups = s.groups := rfl
@[simp] theorem leaveHolds_engine (t : Nat) : (s.leaveHolds t).engine = s.engine := rfl
@[simp] theorem leaveHolds_conceal (t : Nat) : (s.leaveHolds t).conceal = s.conceal := rfl
@[simp] theorem leaveHolds_channels (t : Nat) : (s.leaveHolds t).channels = s.channels := rfl
@[simp] theorem leaveHolds_memPort (t : Nat) : (s.leaveHolds t).memPort = s.memPort := rfl
@[simp] theorem leaveHolds_control (t : Nat) : (s.leaveHolds t).control = s.control := rfl
@[simp] theorem leaveHolds_time (t : Nat) : (s.leaveHolds t).time = s.time := rfl
@[simp] theorem leaveHolds_drawn (t : Nat) : (s.leaveHolds t).drawn = s.drawn := rfl
@[simp] theorem leaveHolds_upsets (t : Nat) : (s.leaveHolds t).upsets = s.upsets := rfl
@[simp] theorem leaveHolds_agenda (t : Nat) : (s.leaveHolds t).agenda = s.agenda := rfl
@[simp] theorem leaveHolds_pending (t : Nat) : (s.leaveHolds t).pending = s.pending := rfl

/-! ### dropTails -/
@[simp] theorem dropTails_pins (ks : List Nat) : (s.dropTails ks).pins = s.pins := rfl
@[simp] theorem dropTails_port (ks : List Nat) : (s.dropTails ks).port = s.port := rfl
@[simp] theorem dropTails_map (ks : List Nat) : (s.dropTails ks).map = s.map := rfl
@[simp] theorem dropTails_groups (ks : List Nat) : (s.dropTails ks).groups = s.groups := rfl
@[simp] theorem dropTails_holds (ks : List Nat) : (s.dropTails ks).holds = s.holds := rfl
@[simp] theorem dropTails_engine (ks : List Nat) : (s.dropTails ks).engine = s.engine := rfl
@[simp] theorem dropTails_channels (ks : List Nat) : (s.dropTails ks).channels = s.channels := rfl
@[simp] theorem dropTails_memPort (ks : List Nat) : (s.dropTails ks).memPort = s.memPort := rfl
@[simp] theorem dropTails_control (ks : List Nat) : (s.dropTails ks).control = s.control := rfl
@[simp] theorem dropTails_time (ks : List Nat) : (s.dropTails ks).time = s.time := rfl
@[simp] theorem dropTails_drawn (ks : List Nat) : (s.dropTails ks).drawn = s.drawn := rfl
@[simp] theorem dropTails_upsets (ks : List Nat) : (s.dropTails ks).upsets = s.upsets := rfl
@[simp] theorem dropTails_agenda (ks : List Nat) : (s.dropTails ks).agenda = s.agenda := rfl
@[simp] theorem dropTails_pending (ks : List Nat) : (s.dropTails ks).pending = s.pending := rfl

/-! ### appendTails -/
@[simp] theorem appendTails_pins (g : Nat) (ts : List PendingTail) : (s.appendTails g ts).pins = s.pins := rfl
@[simp] theorem appendTails_port (g : Nat) (ts : List PendingTail) : (s.appendTails g ts).port = s.port := rfl
@[simp] theorem appendTails_map (g : Nat) (ts : List PendingTail) : (s.appendTails g ts).map = s.map := rfl
@[simp] theorem appendTails_groups (g : Nat) (ts : List PendingTail) : (s.appendTails g ts).groups = s.groups := rfl
@[simp] theorem appendTails_holds (g : Nat) (ts : List PendingTail) : (s.appendTails g ts).holds = s.holds := rfl
@[simp] theorem appendTails_engine (g : Nat) (ts : List PendingTail) : (s.appendTails g ts).engine = s.engine := rfl
@[simp] theorem appendTails_channels (g : Nat) (ts : List PendingTail) : (s.appendTails g ts).channels = s.channels := rfl
@[simp] theorem appendTails_memPort (g : Nat) (ts : List PendingTail) : (s.appendTails g ts).memPort = s.memPort := rfl
@[simp] theorem appendTails_control (g : Nat) (ts : List PendingTail) : (s.appendTails g ts).control = s.control := rfl
@[simp] theorem appendTails_time (g : Nat) (ts : List PendingTail) : (s.appendTails g ts).time = s.time := rfl
@[simp] theorem appendTails_drawn (g : Nat) (ts : List PendingTail) : (s.appendTails g ts).drawn = s.drawn := rfl
@[simp] theorem appendTails_upsets (g : Nat) (ts : List PendingTail) : (s.appendTails g ts).upsets = s.upsets := rfl
@[simp] theorem appendTails_agenda (g : Nat) (ts : List PendingTail) : (s.appendTails g ts).agenda = s.agenda := rfl
@[simp] theorem appendTails_pending (g : Nat) (ts : List PendingTail) : (s.appendTails g ts).pending = s.pending := rfl

/-! ### tailAnswered -/
@[simp] theorem tailAnswered_pins (g n : Nat) : (s.tailAnswered g n).pins = s.pins := rfl
@[simp] theorem tailAnswered_port (g n : Nat) : (s.tailAnswered g n).port = s.port := rfl
@[simp] theorem tailAnswered_map (g n : Nat) : (s.tailAnswered g n).map = s.map := rfl
@[simp] theorem tailAnswered_groups (g n : Nat) : (s.tailAnswered g n).groups = s.groups := rfl
@[simp] theorem tailAnswered_holds (g n : Nat) : (s.tailAnswered g n).holds = s.holds := rfl
@[simp] theorem tailAnswered_engine (g n : Nat) : (s.tailAnswered g n).engine = s.engine := rfl
@[simp] theorem tailAnswered_channels (g n : Nat) : (s.tailAnswered g n).channels = s.channels := rfl
@[simp] theorem tailAnswered_memPort (g n : Nat) : (s.tailAnswered g n).memPort = s.memPort := rfl
@[simp] theorem tailAnswered_control (g n : Nat) : (s.tailAnswered g n).control = s.control := rfl
@[simp] theorem tailAnswered_time (g n : Nat) : (s.tailAnswered g n).time = s.time := rfl
@[simp] theorem tailAnswered_drawn (g n : Nat) : (s.tailAnswered g n).drawn = s.drawn := rfl
@[simp] theorem tailAnswered_upsets (g n : Nat) : (s.tailAnswered g n).upsets = s.upsets := rfl
@[simp] theorem tailAnswered_agenda (g n : Nat) : (s.tailAnswered g n).agenda = s.agenda := rfl
@[simp] theorem tailAnswered_pending (g n : Nat) : (s.tailAnswered g n).pending = s.pending := rfl

/-! ### dropWork -/
@[simp] theorem dropWork_pins (g : Nat) : (s.dropWork g).pins = s.pins := rfl
@[simp] theorem dropWork_port (g : Nat) : (s.dropWork g).port = s.port := rfl
@[simp] theorem dropWork_map (g : Nat) : (s.dropWork g).map = s.map := rfl
@[simp] theorem dropWork_groups (g : Nat) : (s.dropWork g).groups = s.groups := rfl
@[simp] theorem dropWork_holds (g : Nat) : (s.dropWork g).holds = s.holds := rfl
@[simp] theorem dropWork_engine (g : Nat) : (s.dropWork g).engine = s.engine := rfl
@[simp] theorem dropWork_conceal (g : Nat) : (s.dropWork g).conceal =
    { s.conceal with work := s.conceal.work.filter (fun w => w.group != g) } := rfl
@[simp] theorem dropWork_channels (g : Nat) : (s.dropWork g).channels = s.channels := rfl
@[simp] theorem dropWork_memPort (g : Nat) : (s.dropWork g).memPort = s.memPort := rfl
@[simp] theorem dropWork_control (g : Nat) : (s.dropWork g).control = s.control := rfl
@[simp] theorem dropWork_time (g : Nat) : (s.dropWork g).time = s.time := rfl
@[simp] theorem dropWork_drawn (g : Nat) : (s.dropWork g).drawn = s.drawn := rfl
@[simp] theorem dropWork_upsets (g : Nat) : (s.dropWork g).upsets = s.upsets := rfl
@[simp] theorem dropWork_agenda (g : Nat) : (s.dropWork g).agenda = s.agenda := rfl
@[simp] theorem dropWork_pending (g : Nat) : (s.dropWork g).pending = s.pending := rfl

/-! ### endSearches -/
@[simp] theorem endSearches_pins : (s.endSearches).pins = s.pins := rfl
@[simp] theorem endSearches_port : (s.endSearches).port = s.port := rfl
@[simp] theorem endSearches_map : (s.endSearches).map =
    { s.map with pendingSearch := [], search := none } := rfl
@[simp] theorem endSearches_groups : (s.endSearches).groups = s.groups := rfl
@[simp] theorem endSearches_holds : (s.endSearches).holds = s.holds := rfl
@[simp] theorem endSearches_engine : (s.endSearches).engine = s.engine := rfl
@[simp] theorem endSearches_conceal : (s.endSearches).conceal = s.conceal := rfl
@[simp] theorem endSearches_channels : (s.endSearches).channels = s.channels := rfl
@[simp] theorem endSearches_memPort : (s.endSearches).memPort = s.memPort := rfl
@[simp] theorem endSearches_control : (s.endSearches).control = s.control := rfl
@[simp] theorem endSearches_time : (s.endSearches).time = s.time := rfl
@[simp] theorem endSearches_drawn : (s.endSearches).drawn = s.drawn := rfl
@[simp] theorem endSearches_upsets : (s.endSearches).upsets = s.upsets := rfl
@[simp] theorem endSearches_agenda : (s.endSearches).agenda = s.agenda := rfl
@[simp] theorem endSearches_pending : (s.endSearches).pending = s.pending := rfl

/-! ### discardReads -/
@[simp] theorem discardReads_pins : (s.discardReads).pins = s.pins := rfl
@[simp] theorem discardReads_port : (s.discardReads).port = s.port := rfl
@[simp] theorem discardReads_map : (s.discardReads).map = s.map := rfl
@[simp] theorem discardReads_groups : (s.discardReads).groups = s.groups := rfl
@[simp] theorem discardReads_holds : (s.discardReads).holds = s.holds := rfl
@[simp] theorem discardReads_engine : (s.discardReads).engine = s.engine := rfl
@[simp] theorem discardReads_conceal : (s.discardReads).conceal = s.conceal := rfl
@[simp] theorem discardReads_memPort : (s.discardReads).memPort = s.memPort := rfl
@[simp] theorem discardReads_control : (s.discardReads).control = s.control := rfl
@[simp] theorem discardReads_time : (s.discardReads).time = s.time := rfl
@[simp] theorem discardReads_drawn : (s.discardReads).drawn = s.drawn := rfl
@[simp] theorem discardReads_upsets : (s.discardReads).upsets = s.upsets := rfl
@[simp] theorem discardReads_agenda : (s.discardReads).agenda = s.agenda := rfl
@[simp] theorem discardReads_pending : (s.discardReads).pending = s.pending := rfl

/-! ### dropDeadlines -/
@[simp] theorem dropDeadlines_pins : (s.dropDeadlines).pins = s.pins := rfl
@[simp] theorem dropDeadlines_port : (s.dropDeadlines).port = s.port := rfl
@[simp] theorem dropDeadlines_map : (s.dropDeadlines).map = s.map := rfl
@[simp] theorem dropDeadlines_holds : (s.dropDeadlines).holds = s.holds := rfl
@[simp] theorem dropDeadlines_engine : (s.dropDeadlines).engine = s.engine := rfl
@[simp] theorem dropDeadlines_conceal : (s.dropDeadlines).conceal = s.conceal := rfl
@[simp] theorem dropDeadlines_channels : (s.dropDeadlines).channels = s.channels := rfl
@[simp] theorem dropDeadlines_memPort : (s.dropDeadlines).memPort = s.memPort := rfl
@[simp] theorem dropDeadlines_control : (s.dropDeadlines).control = s.control := rfl
@[simp] theorem dropDeadlines_time : (s.dropDeadlines).time = s.time := rfl
@[simp] theorem dropDeadlines_drawn : (s.dropDeadlines).drawn = s.drawn := rfl
@[simp] theorem dropDeadlines_upsets : (s.dropDeadlines).upsets = s.upsets := rfl
@[simp] theorem dropDeadlines_agenda : (s.dropDeadlines).agenda = s.agenda := rfl
@[simp] theorem dropDeadlines_pending : (s.dropDeadlines).pending = s.pending := rfl

/-! ### freeTag -/
@[simp] theorem freeTag_pins (t : Fin 32) : (s.freeTag t).pins = s.pins := rfl
@[simp] theorem freeTag_port (t : Fin 32) : (s.freeTag t).port = s.port := rfl
@[simp] theorem freeTag_map (t : Fin 32) : (s.freeTag t).map = s.map := rfl
@[simp] theorem freeTag_groups (t : Fin 32) : (s.freeTag t).groups = s.groups := rfl
@[simp] theorem freeTag_holds (t : Fin 32) : (s.freeTag t).holds = s.holds := rfl
@[simp] theorem freeTag_engine (t : Fin 32) : (s.freeTag t).engine = s.engine := rfl
@[simp] theorem freeTag_conceal (t : Fin 32) : (s.freeTag t).conceal = s.conceal := rfl
@[simp] theorem freeTag_channels (t : Fin 32) : (s.freeTag t).channels = s.channels := rfl
@[simp] theorem freeTag_memPort (t : Fin 32) : (s.freeTag t).memPort =
    { s.memPort with tags := Table.remove t.val s.memPort.tags } := rfl
@[simp] theorem freeTag_control (t : Fin 32) : (s.freeTag t).control = s.control := rfl
@[simp] theorem freeTag_time (t : Fin 32) : (s.freeTag t).time = s.time := rfl
@[simp] theorem freeTag_drawn (t : Fin 32) : (s.freeTag t).drawn = s.drawn := rfl
@[simp] theorem freeTag_upsets (t : Fin 32) : (s.freeTag t).upsets = s.upsets := rfl
@[simp] theorem freeTag_agenda (t : Fin 32) : (s.freeTag t).agenda = s.agenda := rfl
@[simp] theorem freeTag_pending (t : Fin 32) : (s.freeTag t).pending = s.pending := rfl

/-! ### driveInterrupt -/
@[simp] theorem driveInterrupt_pins : (s.driveInterrupt).pins =
    { s.pins with irqLow := s.interrupt } := rfl
@[simp] theorem driveInterrupt_port : (s.driveInterrupt).port = s.port := rfl
@[simp] theorem driveInterrupt_map : (s.driveInterrupt).map = s.map := rfl
@[simp] theorem driveInterrupt_groups : (s.driveInterrupt).groups = s.groups := rfl
@[simp] theorem driveInterrupt_holds : (s.driveInterrupt).holds = s.holds := rfl
@[simp] theorem driveInterrupt_engine : (s.driveInterrupt).engine = s.engine := rfl
@[simp] theorem driveInterrupt_conceal : (s.driveInterrupt).conceal = s.conceal := rfl
@[simp] theorem driveInterrupt_channels : (s.driveInterrupt).channels = s.channels := rfl
@[simp] theorem driveInterrupt_memPort : (s.driveInterrupt).memPort = s.memPort := rfl
@[simp] theorem driveInterrupt_control : (s.driveInterrupt).control = s.control := rfl
@[simp] theorem driveInterrupt_time : (s.driveInterrupt).time = s.time := rfl
@[simp] theorem driveInterrupt_drawn : (s.driveInterrupt).drawn = s.drawn := rfl
@[simp] theorem driveInterrupt_upsets : (s.driveInterrupt).upsets = s.upsets := rfl
@[simp] theorem driveInterrupt_agenda : (s.driveInterrupt).agenda = s.agenda := rfl
@[simp] theorem driveInterrupt_pending : (s.driveInterrupt).pending = s.pending := rfl

end Sys2Proof.Machine
end

