-- ==== Sys2Proof/Laws/Frames.lean ====
section
/-! SUPPORT. The frame of each shared operation: the fields of the state it leaves as they were. -/
namespace Sys2Proof.Machine

/-- What each round of a fold leaves as it was, the whole fold does. -/
theorem fold_proj {α β γ : Type} (p : β → γ) (f : β → α → β) (h : ∀ s a, p (f s a) = p s) :
    ∀ (l : List α) (s : β), p (l.foldl f s) = p s
  | [], _ => rfl
  | a :: l, s => (fold_proj p f h l (f s a)).trans (h s a)

variable (s : State)

/-! ### presentMem -/
@[simp] theorem presentMem_pins (r : MemRequest) : (s.presentMem r).pins = s.pins :=
  by unfold State.presentMem; split <;> rfl
@[simp] theorem presentMem_port (r : MemRequest) : (s.presentMem r).port = s.port :=
  by unfold State.presentMem; split <;> rfl
@[simp] theorem presentMem_map (r : MemRequest) : (s.presentMem r).map = s.map :=
  by unfold State.presentMem; split <;> rfl
@[simp] theorem presentMem_groups (r : MemRequest) : (s.presentMem r).groups = s.groups :=
  by unfold State.presentMem; split <;> rfl
@[simp] theorem presentMem_holds (r : MemRequest) : (s.presentMem r).holds = s.holds :=
  by unfold State.presentMem; split <;> rfl
@[simp] theorem presentMem_engine (r : MemRequest) : (s.presentMem r).engine = s.engine :=
  by unfold State.presentMem; split <;> rfl
@[simp] theorem presentMem_conceal (r : MemRequest) : (s.presentMem r).conceal = s.conceal :=
  by unfold State.presentMem; split <;> rfl
@[simp] theorem presentMem_channels (r : MemRequest) : (s.presentMem r).channels = s.channels :=
  by unfold State.presentMem; split <;> rfl
@[simp] theorem presentMem_control (r : MemRequest) : (s.presentMem r).control = s.control :=
  by unfold State.presentMem; split <;> rfl
@[simp] theorem presentMem_time (r : MemRequest) : (s.presentMem r).time = s.time :=
  by unfold State.presentMem; split <;> rfl
@[simp] theorem presentMem_drawn (r : MemRequest) : (s.presentMem r).drawn = s.drawn :=
  by unfold State.presentMem; split <;> rfl
@[simp] theorem presentMem_upsets (r : MemRequest) : (s.presentMem r).upsets = s.upsets :=
  by unfold State.presentMem; split <;> rfl
@[simp] theorem presentMem_agenda (r : MemRequest) : (s.presentMem r).agenda = s.agenda :=
  by unfold State.presentMem; split <;> rfl
@[simp] theorem presentMem_pending (r : MemRequest) : (s.presentMem r).pending = s.pending :=
  by unfold State.presentMem; split <;> rfl

/-! ### handBeat -/
@[simp] theorem handBeat_pins (ref : OwnerRef) (a : Nat) (d : Beat) : (s.handBeat ref a d).pins = s.pins :=
  by unfold State.handBeat; (repeat' split) <;> simp
@[simp] theorem handBeat_port (ref : OwnerRef) (a : Nat) (d : Beat) : (s.handBeat ref a d).port = s.port :=
  by unfold State.handBeat; (repeat' split) <;> simp
@[simp] theorem handBeat_map (ref : OwnerRef) (a : Nat) (d : Beat) : (s.handBeat ref a d).map = s.map :=
  by unfold State.handBeat; (repeat' split) <;> simp
@[simp] theorem handBeat_groups (ref : OwnerRef) (a : Nat) (d : Beat) : (s.handBeat ref a d).groups = s.groups :=
  by unfold State.handBeat; (repeat' split) <;> simp
@[simp] theorem handBeat_holds (ref : OwnerRef) (a : Nat) (d : Beat) : (s.handBeat ref a d).holds = s.holds :=
  by unfold State.handBeat; (repeat' split) <;> simp
@[simp] theorem handBeat_engine (ref : OwnerRef) (a : Nat) (d : Beat) : (s.handBeat ref a d).engine = s.engine :=
  by unfold State.handBeat; (repeat' split) <;> simp
@[simp] theorem handBeat_conceal (ref : OwnerRef) (a : Nat) (d : Beat) : (s.handBeat ref a d).conceal = s.conceal :=
  by unfold State.handBeat; (repeat' split) <;> simp
@[simp] theorem handBeat_channels (ref : OwnerRef) (a : Nat) (d : Beat) : (s.handBeat ref a d).channels = s.channels :=
  by unfold State.handBeat; (repeat' split) <;> simp
@[simp] theorem handBeat_control (ref : OwnerRef) (a : Nat) (d : Beat) : (s.handBeat ref a d).control = s.control :=
  by unfold State.handBeat; (repeat' split) <;> simp
@[simp] theorem handBeat_time (ref : OwnerRef) (a : Nat) (d : Beat) : (s.handBeat ref a d).time = s.time :=
  by unfold State.handBeat; (repeat' split) <;> simp
@[simp] theorem handBeat_drawn (ref : OwnerRef) (a : Nat) (d : Beat) : (s.handBeat ref a d).drawn = s.drawn :=
  by unfold State.handBeat; (repeat' split) <;> simp
@[simp] theorem handBeat_upsets (ref : OwnerRef) (a : Nat) (d : Beat) : (s.handBeat ref a d).upsets = s.upsets :=
  by unfold State.handBeat; (repeat' split) <;> simp
@[simp] theorem handBeat_agenda (ref : OwnerRef) (a : Nat) (d : Beat) : (s.handBeat ref a d).agenda = s.agenda :=
  by unfold State.handBeat; (repeat' split) <;> simp
@[simp] theorem handBeat_pending (ref : OwnerRef) (a : Nat) (d : Beat) : (s.handBeat ref a d).pending = s.pending :=
  by unfold State.handBeat; (repeat' split) <;> simp

/-! ### handPart -/
@[simp] theorem handPart_pins : (s.handPart).pins = s.pins :=
  by simp [State.handPart]
@[simp] theorem handPart_port : (s.handPart).port = s.port :=
  by simp [State.handPart]
@[simp] theorem handPart_map : (s.handPart).map = s.map :=
  by simp [State.handPart]
@[simp] theorem handPart_groups : (s.handPart).groups = s.groups :=
  by simp [State.handPart]
@[simp] theorem handPart_holds : (s.handPart).holds = s.holds :=
  by simp [State.handPart]
@[simp] theorem handPart_engine : (s.handPart).engine = s.engine :=
  by simp [State.handPart]
@[simp] theorem handPart_conceal : (s.handPart).conceal = s.conceal :=
  by simp [State.handPart]
@[simp] theorem handPart_channels : (s.handPart).channels = s.channels :=
  by simp [State.handPart]
@[simp] theorem handPart_control : (s.handPart).control = s.control :=
  by simp [State.handPart]
@[simp] theorem handPart_time : (s.handPart).time = s.time :=
  by simp [State.handPart]
@[simp] theorem handPart_drawn : (s.handPart).drawn = s.drawn :=
  by simp [State.handPart]
@[simp] theorem handPart_upsets : (s.handPart).upsets = s.upsets :=
  by simp [State.handPart]
@[simp] theorem handPart_agenda : (s.handPart).agenda = s.agenda :=
  by simp [State.handPart]
@[simp] theorem handPart_pending : (s.handPart).pending = s.pending :=
  by simp [State.handPart]

/-! ### handChannel -/
@[simp] theorem handChannel_pins (c : Fin 8) : (s.handChannel c).pins = s.pins :=
  by simp [State.handChannel]
@[simp] theorem handChannel_port (c : Fin 8) : (s.handChannel c).port = s.port :=
  by simp [State.handChannel]
@[simp] theorem handChannel_map (c : Fin 8) : (s.handChannel c).map = s.map :=
  by simp [State.handChannel]
@[simp] theorem handChannel_groups (c : Fin 8) : (s.handChannel c).groups = s.groups :=
  by simp [State.handChannel]
@[simp] theorem handChannel_holds (c : Fin 8) : (s.handChannel c).holds = s.holds :=
  by simp [State.handChannel]
@[simp] theorem handChannel_engine (c : Fin 8) : (s.handChannel c).engine = s.engine :=
  by simp [State.handChannel]
@[simp] theorem handChannel_conceal (c : Fin 8) : (s.handChannel c).conceal = s.conceal :=
  by simp [State.handChannel]
@[simp] theorem handChannel_channels (c : Fin 8) : (s.handChannel c).channels = s.channels :=
  by simp [State.handChannel]
@[simp] theorem handChannel_control (c : Fin 8) : (s.handChannel c).control = s.control :=
  by simp [State.handChannel]
@[simp] theorem handChannel_time (c : Fin 8) : (s.handChannel c).time = s.time :=
  by simp [State.handChannel]
@[simp] theorem handChannel_drawn (c : Fin 8) : (s.handChannel c).drawn = s.drawn :=
  by simp [State.handChannel]
@[simp] theorem handChannel_upsets (c : Fin 8) : (s.handChannel c).upsets = s.upsets :=
  by simp [State.handChannel]
@[simp] theorem handChannel_agenda (c : Fin 8) : (s.handChannel c).agenda = s.agenda :=
  by simp [State.handChannel]
@[simp] theorem handChannel_pending (c : Fin 8) : (s.handChannel c).pending = s.pending :=
  by simp [State.handChannel]

/-! ### handRecord -/
@[simp] theorem handRecord_pins (cl : FaultClass) : (s.handRecord cl).pins = s.pins :=
  by simp [State.handRecord]
@[simp] theorem handRecord_port (cl : FaultClass) : (s.handRecord cl).port = s.port :=
  by simp [State.handRecord]
@[simp] theorem handRecord_map (cl : FaultClass) : (s.handRecord cl).map = s.map :=
  by simp [State.handRecord]
@[simp] theorem handRecord_groups (cl : FaultClass) : (s.handRecord cl).groups = s.groups :=
  by simp [State.handRecord]
@[simp] theorem handRecord_holds (cl : FaultClass) : (s.handRecord cl).holds = s.holds :=
  by simp [State.handRecord]
@[simp] theorem handRecord_engine (cl : FaultClass) : (s.handRecord cl).engine = s.engine :=
  by simp [State.handRecord]
@[simp] theorem handRecord_conceal (cl : FaultClass) : (s.handRecord cl).conceal = s.conceal :=
  by simp [State.handRecord]
@[simp] theorem handRecord_channels (cl : FaultClass) : (s.handRecord cl).channels = s.channels :=
  by simp [State.handRecord]
@[simp] theorem handRecord_control (cl : FaultClass) : (s.handRecord cl).control = s.control :=
  by simp [State.handRecord]
@[simp] theorem handRecord_time (cl : FaultClass) : (s.handRecord cl).time = s.time :=
  by simp [State.handRecord]
@[simp] theorem handRecord_upsets (cl : FaultClass) : (s.handRecord cl).upsets = s.upsets :=
  by simp [State.handRecord]
@[simp] theorem handRecord_agenda (cl : FaultClass) : (s.handRecord cl).agenda = s.agenda :=
  by simp [State.handRecord]
@[simp] theorem handRecord_pending (cl : FaultClass) : (s.handRecord cl).pending = s.pending :=
  by simp [State.handRecord]

/-! ### handNext -/
@[simp] theorem handNext_pins (cl : FaultClass) : (s.handNext cl).pins = s.pins :=
  by simp [State.handNext]
@[simp] theorem handNext_port (cl : FaultClass) : (s.handNext cl).port = s.port :=
  by simp [State.handNext]
@[simp] theorem handNext_map (cl : FaultClass) : (s.handNext cl).map = s.map :=
  by simp [State.handNext]
@[simp] theorem handNext_groups (cl : FaultClass) : (s.handNext cl).groups = s.groups :=
  by simp [State.handNext]
@[simp] theorem handNext_holds (cl : FaultClass) : (s.handNext cl).holds = s.holds :=
  by simp [State.handNext]
@[simp] theorem handNext_engine (cl : FaultClass) : (s.handNext cl).engine = s.engine :=
  by simp [State.handNext]
@[simp] theorem handNext_conceal (cl : FaultClass) : (s.handNext cl).conceal = s.conceal :=
  by simp [State.handNext]
@[simp] theorem handNext_channels (cl : FaultClass) : (s.handNext cl).channels = s.channels :=
  by simp [State.handNext]
@[simp] theorem handNext_control (cl : FaultClass) : (s.handNext cl).control = s.control :=
  by simp [State.handNext]
@[simp] theorem handNext_time (cl : FaultClass) : (s.handNext cl).time = s.time :=
  by simp [State.handNext]
@[simp] theorem handNext_drawn (cl : FaultClass) : (s.handNext cl).drawn = s.drawn :=
  by simp [State.handNext]
@[simp] theorem handNext_upsets (cl : FaultClass) : (s.handNext cl).upsets = s.upsets :=
  by simp [State.handNext]
@[simp] theorem handNext_agenda (cl : FaultClass) : (s.handNext cl).agenda = s.agenda :=
  by simp [State.handNext]
@[simp] theorem handNext_pending (cl : FaultClass) : (s.handNext cl).pending = s.pending :=
  by simp [State.handNext]

/-! ### setControl -/
@[simp] theorem setControl_pins (f : Control → Control) : (s.setControl f).pins = s.pins :=
  by unfold State.setControl; dsimp only; split <;> simp
@[simp] theorem setControl_port (f : Control → Control) : (s.setControl f).port = s.port :=
  by unfold State.setControl; dsimp only; split <;> simp
@[simp] theorem setControl_map (f : Control → Control) : (s.setControl f).map = s.map :=
  by unfold State.setControl; dsimp only; split <;> simp
@[simp] theorem setControl_groups (f : Control → Control) : (s.setControl f).groups = s.groups :=
  by unfold State.setControl; dsimp only; split <;> simp
@[simp] theorem setControl_holds (f : Control → Control) : (s.setControl f).holds = s.holds :=
  by unfold State.setControl; dsimp only; split <;> simp
@[simp] theorem setControl_engine (f : Control → Control) : (s.setControl f).engine = s.engine :=
  by unfold State.setControl; dsimp only; split <;> simp
@[simp] theorem setControl_conceal (f : Control → Control) : (s.setControl f).conceal = s.conceal :=
  by unfold State.setControl; dsimp only; split <;> simp
@[simp] theorem setControl_channels (f : Control → Control) : (s.setControl f).channels = s.channels :=
  by unfold State.setControl; dsimp only; split <;> simp
@[simp] theorem setControl_time (f : Control → Control) : (s.setControl f).time = s.time :=
  by unfold State.setControl; dsimp only; split <;> simp
@[simp] theorem setControl_drawn (f : Control → Control) : (s.setControl f).drawn = s.drawn :=
  by unfold State.setControl; dsimp only; split <;> simp
@[simp] theorem setControl_upsets (f : Control → Control) : (s.setControl f).upsets = s.upsets :=
  by unfold State.setControl; dsimp only; split <;> simp
@[simp] theorem setControl_agenda (f : Control → Control) : (s.setControl f).agenda = s.agenda :=
  by unfold State.setControl; dsimp only; split <;> simp
@[simp] theorem setControl_pending (f : Control → Control) : (s.setControl f).pending = s.pending :=
  by unfold State.setControl; dsimp only; split <;> simp

/-! ### setChannel -/
@[simp] theorem setChannel_pins (c : Fin 8) (f : Channel → Channel) : (s.setChannel c f).pins = s.pins :=
  by unfold State.setChannel; dsimp only; split <;> simp
@[simp] theorem setChannel_port (c : Fin 8) (f : Channel → Channel) : (s.setChannel c f).port = s.port :=
  by unfold State.setChannel; dsimp only; split <;> simp
@[simp] theorem setChannel_map (c : Fin 8) (f : Channel → Channel) : (s.setChannel c f).map = s.map :=
  by unfold State.setChannel; dsimp only; split <;> simp
@[simp] theorem setChannel_groups (c : Fin 8) (f : Channel → Channel) : (s.setChannel c f).groups = s.groups :=
  by unfold State.setChannel; dsimp only; split <;> simp
@[simp] theorem setChannel_holds (c : Fin 8) (f : Channel → Channel) : (s.setChannel c f).holds = s.holds :=
  by unfold State.setChannel; dsimp only; split <;> simp
@[simp] theorem setChannel_engine (c : Fin 8) (f : Channel → Channel) : (s.setChannel c f).engine = s.engine :=
  by unfold State.setChannel; dsimp only; split <;> simp
@[simp] theorem setChannel_conceal (c : Fin 8) (f : Channel → Channel) : (s.setChannel c f).conceal = s.conceal :=
  by unfold State.setChannel; dsimp only; split <;> simp
@[simp] theorem setChannel_control (c : Fin 8) (f : Channel → Channel) : (s.setChannel c f).control = s.control :=
  by unfold State.setChannel; dsimp only; split <;> simp
@[simp] theorem setChannel_time (c : Fin 8) (f : Channel → Channel) : (s.setChannel c f).time = s.time :=
  by unfold State.setChannel; dsimp only; split <;> simp
@[simp] theorem setChannel_drawn (c : Fin 8) (f : Channel → Channel) : (s.setChannel c f).drawn = s.drawn :=
  by unfold State.setChannel; dsimp only; split <;> simp
@[simp] theorem setChannel_upsets (c : Fin 8) (f : Channel → Channel) : (s.setChannel c f).upsets = s.upsets :=
  by unfold State.setChannel; dsimp only; split <;> simp
@[simp] theorem setChannel_agenda (c : Fin 8) (f : Channel → Channel) : (s.setChannel c f).agenda = s.agenda :=
  by unfold State.setChannel; dsimp only; split <;> simp
@[simp] theorem setChannel_pending (c : Fin 8) (f : Channel → Channel) : (s.setChannel c f).pending = s.pending :=
  by unfold State.setChannel; dsimp only; split <;> simp

/-! ### enableWriting -/
@[simp] theorem enableWriting_pins : (s.enableWriting).pins = s.pins :=
  by unfold State.enableWriting; split <;> simp [fold_proj (·.pins) State.handChannel (fun s c => handChannel_pins s c)]
@[simp] theorem enableWriting_port : (s.enableWriting).port = s.port :=
  by unfold State.enableWriting; split <;> simp [fold_proj (·.port) State.handChannel (fun s c => handChannel_port s c)]
@[simp] theorem enableWriting_map : (s.enableWriting).map = s.map :=
  by unfold State.enableWriting; split <;> simp [fold_proj (·.map) State.handChannel (fun s c => handChannel_map s c)]
@[simp] theorem enableWriting_groups : (s.enableWriting).groups = s.groups :=
  by unfold State.enableWriting; split <;> simp [fold_proj (·.groups) State.handChannel (fun s c => handChannel_groups s c)]
@[simp] theorem enableWriting_holds : (s.enableWriting).holds = s.holds :=
  by unfold State.enableWriting; split <;> simp [fold_proj (·.holds) State.handChannel (fun s c => handChannel_holds s c)]
@[simp] theorem enableWriting_engine : (s.enableWriting).engine = s.engine :=
  by unfold State.enableWriting; split <;> simp [fold_proj (·.engine) State.handChannel (fun s c => handChannel_engine s c)]
@[simp] theorem enableWriting_conceal : (s.enableWriting).conceal = s.conceal :=
  by unfold State.enableWriting; split <;> simp [fold_proj (·.conceal) State.handChannel (fun s c => handChannel_conceal s c)]
@[simp] theorem enableWriting_channels : (s.enableWriting).channels = s.channels :=
  by unfold State.enableWriting; split <;> simp [fold_proj (·.channels) State.handChannel (fun s c => handChannel_channels s c)]
@[simp] theorem enableWriting_time : (s.enableWriting).time = s.time :=
  by unfold State.enableWriting; split <;> simp [fold_proj (·.time) State.handChannel (fun s c => handChannel_time s c)]
@[simp] theorem enableWriting_upsets : (s.enableWriting).upsets = s.upsets :=
  by unfold State.enableWriting; split <;> simp [fold_proj (·.upsets) State.handChannel (fun s c => handChannel_upsets s c)]
@[simp] theorem enableWriting_agenda : (s.enableWriting).agenda = s.agenda :=
  by unfold State.enableWriting; split <;> simp [fold_proj (·.agenda) State.handChannel (fun s c => handChannel_agenda s c)]
@[simp] theorem enableWriting_pending : (s.enableWriting).pending = s.pending :=
  by unfold State.enableWriting; split <;> simp [fold_proj (·.pending) State.handChannel (fun s c => handChannel_pending s c)]

/-! ### logFault -/
@[simp] theorem logFault_pins (r : FaultRecord) : (s.logFault r).pins = s.pins :=
  by unfold State.logFault; dsimp only; split <;> simp
@[simp] theorem logFault_port (r : FaultRecord) : (s.logFault r).port = s.port :=
  by unfold State.logFault; dsimp only; split <;> simp
@[simp] theorem logFault_map (r : FaultRecord) : (s.logFault r).map = s.map :=
  by unfold State.logFault; dsimp only; split <;> simp
@[simp] theorem logFault_groups (r : FaultRecord) : (s.logFault r).groups = s.groups :=
  by unfold State.logFault; dsimp only; split <;> simp
@[simp] theorem logFault_holds (r : FaultRecord) : (s.logFault r).holds = s.holds :=
  by unfold State.logFault; dsimp only; split <;> simp
@[simp] theorem logFault_engine (r : FaultRecord) : (s.logFault r).engine = s.engine :=
  by unfold State.logFault; dsimp only; split <;> simp
@[simp] theorem logFault_conceal (r : FaultRecord) : (s.logFault r).conceal = s.conceal :=
  by unfold State.logFault; dsimp only; split <;> simp
@[simp] theorem logFault_channels (r : FaultRecord) : (s.logFault r).channels = s.channels :=
  by unfold State.logFault; dsimp only; split <;> simp
@[simp] theorem logFault_time (r : FaultRecord) : (s.logFault r).time = s.time :=
  by unfold State.logFault; dsimp only; split <;> simp
@[simp] theorem logFault_upsets (r : FaultRecord) : (s.logFault r).upsets = s.upsets :=
  by unfold State.logFault; dsimp only; split <;> simp
@[simp] theorem logFault_agenda (r : FaultRecord) : (s.logFault r).agenda = s.agenda :=
  by unfold State.logFault; dsimp only; split <;> simp
@[simp] theorem logFault_pending (r : FaultRecord) : (s.logFault r).pending = s.pending :=
  by unfold State.logFault; dsimp only; split <;> simp

/-! ### presentReport -/
@[simp] theorem presentReport_pins : (s.presentReport).pins = s.pins :=
  by unfold State.presentReport; (repeat' split) <;> simp
@[simp] theorem presentReport_port : (s.presentReport).port = s.port :=
  by unfold State.presentReport; (repeat' split) <;> simp
@[simp] theorem presentReport_map : (s.presentReport).map = s.map :=
  by unfold State.presentReport; (repeat' split) <;> simp
@[simp] theorem presentReport_groups : (s.presentReport).groups = s.groups :=
  by unfold State.presentReport; (repeat' split) <;> simp
@[simp] theorem presentReport_holds : (s.presentReport).holds = s.holds :=
  by unfold State.presentReport; (repeat' split) <;> simp
@[simp] theorem presentReport_engine : (s.presentReport).engine = s.engine :=
  by unfold State.presentReport; (repeat' split) <;> simp
@[simp] theorem presentReport_conceal : (s.presentReport).conceal = s.conceal :=
  by unfold State.presentReport; (repeat' split) <;> simp
@[simp] theorem presentReport_channels : (s.presentReport).channels = s.channels :=
  by unfold State.presentReport; (repeat' split) <;> simp
@[simp] theorem presentReport_time : (s.presentReport).time = s.time :=
  by unfold State.presentReport; (repeat' split) <;> simp
@[simp] theorem presentReport_drawn : (s.presentReport).drawn = s.drawn :=
  by unfold State.presentReport; (repeat' split) <;> simp
@[simp] theorem presentReport_upsets : (s.presentReport).upsets = s.upsets :=
  by unfold State.presentReport; (repeat' split) <;> simp
@[simp] theorem presentReport_agenda : (s.presentReport).agenda = s.agenda :=
  by unfold State.presentReport; (repeat' split) <;> simp
@[simp] theorem presentReport_pending : (s.presentReport).pending = s.pending :=
  by unfold State.presentReport; (repeat' split) <;> simp

/-! ### overflowReport -/
@[simp] theorem overflowReport_pins (r : Report) : (s.overflowReport r).pins = s.pins :=
  by unfold State.overflowReport; dsimp only; split <;> simp
@[simp] theorem overflowReport_port (r : Report) : (s.overflowReport r).port = s.port :=
  by unfold State.overflowReport; dsimp only; split <;> simp
@[simp] theorem overflowReport_map (r : Report) : (s.overflowReport r).map = s.map :=
  by unfold State.overflowReport; dsimp only; split <;> simp
@[simp] theorem overflowReport_groups (r : Report) : (s.overflowReport r).groups = s.groups :=
  by unfold State.overflowReport; dsimp only; split <;> simp
@[simp] theorem overflowReport_holds (r : Report) : (s.overflowReport r).holds = s.holds :=
  by unfold State.overflowReport; dsimp only; split <;> simp
@[simp] theorem overflowReport_engine (r : Report) : (s.overflowReport r).engine = s.engine :=
  by unfold State.overflowReport; dsimp only; split <;> simp
@[simp] theorem overflowReport_conceal (r : Report) : (s.overflowReport r).conceal = s.conceal :=
  by unfold State.overflowReport; dsimp only; split <;> simp
@[simp] theorem overflowReport_channels (r : Report) : (s.overflowReport r).channels = s.channels :=
  by unfold State.overflowReport; dsimp only; split <;> simp
@[simp] theorem overflowReport_time (r : Report) : (s.overflowReport r).time = s.time :=
  by unfold State.overflowReport; dsimp only; split <;> simp
@[simp] theorem overflowReport_upsets (r : Report) : (s.overflowReport r).upsets = s.upsets :=
  by unfold State.overflowReport; dsimp only; split <;> simp
@[simp] theorem overflowReport_agenda (r : Report) : (s.overflowReport r).agenda = s.agenda :=
  by unfold State.overflowReport; dsimp only; split <;> simp
@[simp] theorem overflowReport_pending (r : Report) : (s.overflowReport r).pending = s.pending :=
  by unfold State.overflowReport; dsimp only; split <;> simp

/-! ### post -/
@[simp] theorem post_pins (r : Report) : (s.post r).pins = s.pins :=
  by unfold State.post; (repeat' split) <;> simp
@[simp] theorem post_port (r : Report) : (s.post r).port = s.port :=
  by unfold State.post; (repeat' split) <;> simp
@[simp] theorem post_map (r : Report) : (s.post r).map = s.map :=
  by unfold State.post; (repeat' split) <;> simp
@[simp] theorem post_groups (r : Report) : (s.post r).groups = s.groups :=
  by unfold State.post; (repeat' split) <;> simp
@[simp] theorem post_holds (r : Report) : (s.post r).holds = s.holds :=
  by unfold State.post; (repeat' split) <;> simp
@[simp] theorem post_engine (r : Report) : (s.post r).engine = s.engine :=
  by unfold State.post; (repeat' split) <;> simp
@[simp] theorem post_conceal (r : Report) : (s.post r).conceal = s.conceal :=
  by unfold State.post; (repeat' split) <;> simp
@[simp] theorem post_channels (r : Report) : (s.post r).channels = s.channels :=
  by unfold State.post; (repeat' split) <;> simp
@[simp] theorem post_time (r : Report) : (s.post r).time = s.time :=
  by unfold State.post; (repeat' split) <;> simp
@[simp] theorem post_upsets (r : Report) : (s.post r).upsets = s.upsets :=
  by unfold State.post; (repeat' split) <;> simp
@[simp] theorem post_agenda (r : Report) : (s.post r).agenda = s.agenda :=
  by unfold State.post; (repeat' split) <;> simp
@[simp] theorem post_pending (r : Report) : (s.post r).pending = s.pending :=
  by unfold State.post; (repeat' split) <;> simp

/-! ### turnAway -/
@[simp] theorem turnAway_pins (t : Nat) : (s.turnAway t).pins = s.pins :=
  by unfold State.turnAway; (repeat' split) <;> simp
@[simp] theorem turnAway_map (t : Nat) : (s.turnAway t).map = s.map :=
  by unfold State.turnAway; (repeat' split) <;> simp
@[simp] theorem turnAway_groups (t : Nat) : (s.turnAway t).groups = s.groups :=
  by unfold State.turnAway; (repeat' split) <;> simp
@[simp] theorem turnAway_holds (t : Nat) : (s.turnAway t).holds = s.holds :=
  by unfold State.turnAway; (repeat' split) <;> simp
@[simp] theorem turnAway_engine (t : Nat) : (s.turnAway t).engine = s.engine :=
  by unfold State.turnAway; (repeat' split) <;> simp
@[simp] theorem turnAway_conceal (t : Nat) : (s.turnAway t).conceal = s.conceal :=
  by unfold State.turnAway; (repeat' split) <;> simp
@[simp] theorem turnAway_channels (t : Nat) : (s.turnAway t).channels = s.channels :=
  by unfold State.turnAway; (repeat' split) <;> simp
@[simp] theorem turnAway_memPort (t : Nat) : (s.turnAway t).memPort = s.memPort :=
  by unfold State.turnAway; (repeat' split) <;> simp
@[simp] theorem turnAway_control (t : Nat) : (s.turnAway t).control = s.control :=
  by unfold State.turnAway; (repeat' split) <;> simp
@[simp] theorem turnAway_time (t : Nat) : (s.turnAway t).time = s.time :=
  by unfold State.turnAway; (repeat' split) <;> simp
@[simp] theorem turnAway_drawn (t : Nat) : (s.turnAway t).drawn = s.drawn :=
  by unfold State.turnAway; (repeat' split) <;> simp
@[simp] theorem turnAway_upsets (t : Nat) : (s.turnAway t).upsets = s.upsets :=
  by unfold State.turnAway; (repeat' split) <;> simp
@[simp] theorem turnAway_agenda (t : Nat) : (s.turnAway t).agenda = s.agenda :=
  by unfold State.turnAway; (repeat' split) <;> simp
@[simp] theorem turnAway_pending (t : Nat) : (s.turnAway t).pending = s.pending :=
  by unfold State.turnAway; (repeat' split) <;> simp

/-! ### modGroup -/
@[simp] theorem modGroup_pins (g : Nat) (f : Group → Group) : (s.modGroup g f).pins = s.pins :=
  by unfold State.modGroup; split <;> simp
@[simp] theorem modGroup_port (g : Nat) (f : Group → Group) : (s.modGroup g f).port = s.port :=
  by unfold State.modGroup; split <;> simp
@[simp] theorem modGroup_map (g : Nat) (f : Group → Group) : (s.modGroup g f).map = s.map :=
  by unfold State.modGroup; split <;> simp
@[simp] theorem modGroup_holds (g : Nat) (f : Group → Group) : (s.modGroup g f).holds = s.holds :=
  by unfold State.modGroup; split <;> simp
@[simp] theorem modGroup_engine (g : Nat) (f : Group → Group) : (s.modGroup g f).engine = s.engine :=
  by unfold State.modGroup; split <;> simp
@[simp] theorem modGroup_conceal (g : Nat) (f : Group → Group) : (s.modGroup g f).conceal = s.conceal :=
  by unfold State.modGroup; split <;> simp
@[simp] theorem modGroup_channels (g : Nat) (f : Group → Group) : (s.modGroup g f).channels = s.channels :=
  by unfold State.modGroup; split <;> simp
@[simp] theorem modGroup_memPort (g : Nat) (f : Group → Group) : (s.modGroup g f).memPort = s.memPort :=
  by unfold State.modGroup; split <;> simp
@[simp] theorem modGroup_control (g : Nat) (f : Group → Group) : (s.modGroup g f).control = s.control :=
  by unfold State.modGroup; split <;> simp
@[simp] theorem modGroup_time (g : Nat) (f : Group → Group) : (s.modGroup g f).time = s.time :=
  by unfold State.modGroup; split <;> simp
@[simp] theorem modGroup_drawn (g : Nat) (f : Group → Group) : (s.modGroup g f).drawn = s.drawn :=
  by unfold State.modGroup; split <;> simp
@[simp] theorem modGroup_upsets (g : Nat) (f : Group → Group) : (s.modGroup g f).upsets = s.upsets :=
  by unfold State.modGroup; split <;> simp
@[simp] theorem modGroup_agenda (g : Nat) (f : Group → Group) : (s.modGroup g f).agenda = s.agenda :=
  by unfold State.modGroup; split <;> simp
@[simp] theorem modGroup_pending (g : Nat) (f : Group → Group) : (s.modGroup g f).pending = s.pending :=
  by unfold State.modGroup; split <;> simp

/-! ### startSearch -/
@[simp] theorem startSearch_pins : (s.startSearch).pins = s.pins :=
  by unfold State.startSearch; split <;> simp
@[simp] theorem startSearch_port : (s.startSearch).port = s.port :=
  by unfold State.startSearch; split <;> simp
@[simp] theorem startSearch_groups : (s.startSearch).groups = s.groups :=
  by unfold State.startSearch; split <;> simp
@[simp] theorem startSearch_holds : (s.startSearch).holds = s.holds :=
  by unfold State.startSearch; split <;> simp
@[simp] theorem startSearch_engine : (s.startSearch).engine = s.engine :=
  by unfold State.startSearch; split <;> simp
@[simp] theorem startSearch_conceal : (s.startSearch).conceal = s.conceal :=
  by unfold State.startSearch; split <;> simp
@[simp] theorem startSearch_channels : (s.startSearch).channels = s.channels :=
  by unfold State.startSearch; split <;> simp
@[simp] theorem startSearch_memPort : (s.startSearch).memPort = s.memPort :=
  by unfold State.startSearch; split <;> simp
@[simp] theorem startSearch_control : (s.startSearch).control = s.control :=
  by unfold State.startSearch; split <;> simp
@[simp] theorem startSearch_time : (s.startSearch).time = s.time :=
  by unfold State.startSearch; split <;> simp
@[simp] theorem startSearch_drawn : (s.startSearch).drawn = s.drawn :=
  by unfold State.startSearch; split <;> simp
@[simp] theorem startSearch_upsets : (s.startSearch).upsets = s.upsets :=
  by unfold State.startSearch; split <;> simp
@[simp] theorem startSearch_agenda : (s.startSearch).agenda = s.agenda :=
  by unfold State.startSearch; split <;> simp
@[simp] theorem startSearch_pending : (s.startSearch).pending = s.pending :=
  by unfold State.startSearch; split <;> simp

/-! ### quarantine -/
@[simp] theorem quarantine_pins (k : Nat) : (s.quarantine k).pins = s.pins :=
  by unfold State.quarantine; dsimp only; split <;> simp
@[simp] theorem quarantine_port (k : Nat) : (s.quarantine k).port = s.port :=
  by unfold State.quarantine; dsimp only; split <;> simp
@[simp] theorem quarantine_groups (k : Nat) : (s.quarantine k).groups = s.groups :=
  by unfold State.quarantine; dsimp only; split <;> simp
@[simp] theorem quarantine_holds (k : Nat) : (s.quarantine k).holds = s.holds :=
  by unfold State.quarantine; dsimp only; split <;> simp
@[simp] theorem quarantine_engine (k : Nat) : (s.quarantine k).engine = s.engine :=
  by unfold State.quarantine; dsimp only; split <;> simp
@[simp] theorem quarantine_conceal (k : Nat) : (s.quarantine k).conceal = s.conceal :=
  by unfold State.quarantine; dsimp only; split <;> simp
@[simp] theorem quarantine_channels (k : Nat) : (s.quarantine k).channels = s.channels :=
  by unfold State.quarantine; dsimp only; split <;> simp
@[simp] theorem quarantine_memPort (k : Nat) : (s.quarantine k).memPort = s.memPort :=
  by unfold State.quarantine; dsimp only; split <;> simp
@[simp] theorem quarantine_control (k : Nat) : (s.quarantine k).control = s.control :=
  by unfold State.quarantine; dsimp only; split <;> simp
@[simp] theorem quarantine_time (k : Nat) : (s.quarantine k).time = s.time :=
  by unfold State.quarantine; dsimp only; split <;> simp
@[simp] theorem quarantine_drawn (k : Nat) : (s.quarantine k).drawn = s.drawn :=
  by unfold State.quarantine; dsimp only; split <;> simp
@[simp] theorem quarantine_upsets (k : Nat) : (s.quarantine k).upsets = s.upsets :=
  by unfold State.quarantine; dsimp only; split <;> simp
@[simp] theorem quarantine_agenda (k : Nat) : (s.quarantine k).agenda = s.agenda :=
  by unfold State.quarantine; dsimp only; split <;> simp
@[simp] theorem quarantine_pending (k : Nat) : (s.quarantine k).pending = s.pending :=
  by unfold State.quarantine; dsimp only; split <;> simp

/-! ### touch -/
@[simp] theorem touch_pins (k : Nat) : (s.touch k).pins = s.pins :=
  by unfold State.touch; dsimp only; split <;> simp
@[simp] theorem touch_port (k : Nat) : (s.touch k).port = s.port :=
  by unfold State.touch; dsimp only; split <;> simp
@[simp] theorem touch_groups (k : Nat) : (s.touch k).groups = s.groups :=
  by unfold State.touch; dsimp only; split <;> simp
@[simp] theorem touch_holds (k : Nat) : (s.touch k).holds = s.holds :=
  by unfold State.touch; dsimp only; split <;> simp
@[simp] theorem touch_engine (k : Nat) : (s.touch k).engine = s.engine :=
  by unfold State.touch; dsimp only; split <;> simp
@[simp] theorem touch_conceal (k : Nat) : (s.touch k).conceal = s.conceal :=
  by unfold State.touch; dsimp only; split <;> simp
@[simp] theorem touch_channels (k : Nat) : (s.touch k).channels = s.channels :=
  by unfold State.touch; dsimp only; split <;> simp
@[simp] theorem touch_memPort (k : Nat) : (s.touch k).memPort = s.memPort :=
  by unfold State.touch; dsimp only; split <;> simp
@[simp] theorem touch_control (k : Nat) : (s.touch k).control = s.control :=
  by unfold State.touch; dsimp only; split <;> simp
@[simp] theorem touch_time (k : Nat) : (s.touch k).time = s.time :=
  by unfold State.touch; dsimp only; split <;> simp
@[simp] theorem touch_drawn (k : Nat) : (s.touch k).drawn = s.drawn :=
  by unfold State.touch; dsimp only; split <;> simp
@[simp] theorem touch_upsets (k : Nat) : (s.touch k).upsets = s.upsets :=
  by unfold State.touch; dsimp only; split <;> simp
@[simp] theorem touch_agenda (k : Nat) : (s.touch k).agenda = s.agenda :=
  by unfold State.touch; dsimp only; split <;> simp
@[simp] theorem touch_pending (k : Nat) : (s.touch k).pending = s.pending :=
  by unfold State.touch; dsimp only; split <;> simp

/-! ### touchAll -/
@[simp] theorem touchAll_pins (ks : List Nat) : (s.touchAll ks).pins = s.pins :=
  fold_proj (·.pins) State.touch (fun s k => touch_pins s k) ks s
@[simp] theorem touchAll_port (ks : List Nat) : (s.touchAll ks).port = s.port :=
  fold_proj (·.port) State.touch (fun s k => touch_port s k) ks s
@[simp] theorem touchAll_groups (ks : List Nat) : (s.touchAll ks).groups = s.groups :=
  fold_proj (·.groups) State.touch (fun s k => touch_groups s k) ks s
@[simp] theorem touchAll_holds (ks : List Nat) : (s.touchAll ks).holds = s.holds :=
  fold_proj (·.holds) State.touch (fun s k => touch_holds s k) ks s
@[simp] theorem touchAll_engine (ks : List Nat) : (s.touchAll ks).engine = s.engine :=
  fold_proj (·.engine) State.touch (fun s k => touch_engine s k) ks s
@[simp] theorem touchAll_conceal (ks : List Nat) : (s.touchAll ks).conceal = s.conceal :=
  fold_proj (·.conceal) State.touch (fun s k => touch_conceal s k) ks s
@[simp] theorem touchAll_channels (ks : List Nat) : (s.touchAll ks).channels = s.channels :=
  fold_proj (·.channels) State.touch (fun s k => touch_channels s k) ks s
@[simp] theorem touchAll_memPort (ks : List Nat) : (s.touchAll ks).memPort = s.memPort :=
  fold_proj (·.memPort) State.touch (fun s k => touch_memPort s k) ks s
@[simp] theorem touchAll_control (ks : List Nat) : (s.touchAll ks).control = s.control :=
  fold_proj (·.control) State.touch (fun s k => touch_control s k) ks s
@[simp] theorem touchAll_time (ks : List Nat) : (s.touchAll ks).time = s.time :=
  fold_proj (·.time) State.touch (fun s k => touch_time s k) ks s
@[simp] theorem touchAll_drawn (ks : List Nat) : (s.touchAll ks).drawn = s.drawn :=
  fold_proj (·.drawn) State.touch (fun s k => touch_drawn s k) ks s
@[simp] theorem touchAll_upsets (ks : List Nat) : (s.touchAll ks).upsets = s.upsets :=
  fold_proj (·.upsets) State.touch (fun s k => touch_upsets s k) ks s
@[simp] theorem touchAll_agenda (ks : List Nat) : (s.touchAll ks).agenda = s.agenda :=
  fold_proj (·.agenda) State.touch (fun s k => touch_agenda s k) ks s
@[simp] theorem touchAll_pending (ks : List Nat) : (s.touchAll ks).pending = s.pending :=
  fold_proj (·.pending) State.touch (fun s k => touch_pending s k) ks s

/-! ### insertRanges -/
@[simp] theorem insertRanges_pins (k : Nat) (l : List SectorRange) : (s.insertRanges k l).pins = s.pins :=
  by unfold State.insertRanges; dsimp only; split <;> simp
@[simp] theorem insertRanges_port (k : Nat) (l : List SectorRange) : (s.insertRanges k l).port = s.port :=
  by unfold State.insertRanges; dsimp only; split <;> simp
@[simp] theorem insertRanges_groups (k : Nat) (l : List SectorRange) : (s.insertRanges k l).groups = s.groups :=
  by unfold State.insertRanges; dsimp only; split <;> simp
@[simp] theorem insertRanges_holds (k : Nat) (l : List SectorRange) : (s.insertRanges k l).holds = s.holds :=
  by unfold State.insertRanges; dsimp only; split <;> simp
@[simp] theorem insertRanges_engine (k : Nat) (l : List SectorRange) : (s.insertRanges k l).engine = s.engine :=
  by unfold State.insertRanges; dsimp only; split <;> simp
@[simp] theorem insertRanges_conceal (k : Nat) (l : List SectorRange) : (s.insertRanges k l).conceal = s.conceal :=
  by unfold State.insertRanges; dsimp only; split <;> simp
@[simp] theorem insertRanges_channels (k : Nat) (l : List SectorRange) : (s.insertRanges k l).channels = s.channels :=
  by unfold State.insertRanges; dsimp only; split <;> simp
@[simp] theorem insertRanges_memPort (k : Nat) (l : List SectorRange) : (s.insertRanges k l).memPort = s.memPort :=
  by unfold State.insertRanges; dsimp only; split <;> simp
@[simp] theorem insertRanges_control (k : Nat) (l : List SectorRange) : (s.insertRanges k l).control = s.control :=
  by unfold State.insertRanges; dsimp only; split <;> simp
@[simp] theorem insertRanges_time (k : Nat) (l : List SectorRange) : (s.insertRanges k l).time = s.time :=
  by unfold State.insertRanges; dsimp only; split <;> simp
@[simp] theorem insertRanges_drawn (k : Nat) (l : List SectorRange) : (s.insertRanges k l).drawn = s.drawn :=
  by unfold State.insertRanges; dsimp only; split <;> simp
@[simp] theorem insertRanges_upsets (k : Nat) (l : List SectorRange) : (s.insertRanges k l).upsets = s.upsets :=
  by unfold State.insertRanges; dsimp only; split <;> simp
@[simp] theorem insertRanges_agenda (k : Nat) (l : List SectorRange) : (s.insertRanges k l).agenda = s.agenda :=
  by unfold State.insertRanges; dsimp only; split <;> simp
@[simp] theorem insertRanges_pending (k : Nat) (l : List SectorRange) : (s.insertRanges k l).pending = s.pending :=
  by unfold State.insertRanges; dsimp only; split <;> simp

/-! ### insertPosition -/
@[simp] theorem insertPosition_pins (k p : Nat) : (s.insertPosition k p).pins = s.pins :=
  by simp [State.insertPosition]
@[simp] theorem insertPosition_port (k p : Nat) : (s.insertPosition k p).port = s.port :=
  by simp [State.insertPosition]
@[simp] theorem insertPosition_groups (k p : Nat) : (s.insertPosition k p).groups = s.groups :=
  by simp [State.insertPosition]
@[simp] theorem insertPosition_holds (k p : Nat) : (s.insertPosition k p).holds = s.holds :=
  by simp [State.insertPosition]
@[simp] theorem insertPosition_engine (k p : Nat) : (s.insertPosition k p).engine = s.engine :=
  by simp [State.insertPosition]
@[simp] theorem insertPosition_conceal (k p : Nat) : (s.insertPosition k p).conceal = s.conceal :=
  by simp [State.insertPosition]
@[simp] theorem insertPosition_channels (k p : Nat) : (s.insertPosition k p).channels = s.channels :=
  by simp [State.insertPosition]
@[simp] theorem insertPosition_memPort (k p : Nat) : (s.insertPosition k p).memPort = s.memPort :=
  by simp [State.insertPosition]
@[simp] theorem insertPosition_control (k p : Nat) : (s.insertPosition k p).control = s.control :=
  by simp [State.insertPosition]
@[simp] theorem insertPosition_time (k p : Nat) : (s.insertPosition k p).time = s.time :=
  by simp [State.insertPosition]
@[simp] theorem insertPosition_drawn (k p : Nat) : (s.insertPosition k p).drawn = s.drawn :=
  by simp [State.insertPosition]
@[simp] theorem insertPosition_upsets (k p : Nat) : (s.insertPosition k p).upsets = s.upsets :=
  by simp [State.insertPosition]
@[simp] theorem insertPosition_agenda (k p : Nat) : (s.insertPosition k p).agenda = s.agenda :=
  by simp [State.insertPosition]
@[simp] theorem insertPosition_pending (k p : Nat) : (s.insertPosition k p).pending = s.pending :=
  by simp [State.insertPosition]

/-! ### removePosition -/
@[simp] theorem removePosition_pins (k p : Nat) : (s.removePosition k p).1.pins = s.pins :=
  by unfold State.removePosition; dsimp only; split <;> simp
@[simp] theorem removePosition_port (k p : Nat) : (s.removePosition k p).1.port = s.port :=
  by unfold State.removePosition; dsimp only; split <;> simp
@[simp] theorem removePosition_groups (k p : Nat) : (s.removePosition k p).1.groups = s.groups :=
  by unfold State.removePosition; dsimp only; split <;> simp
@[simp] theorem removePosition_holds (k p : Nat) : (s.removePosition k p).1.holds = s.holds :=
  by unfold State.removePosition; dsimp only; split <;> simp
@[simp] theorem removePosition_engine (k p : Nat) : (s.removePosition k p).1.engine = s.engine :=
  by unfold State.removePosition; dsimp only; split <;> simp
@[simp] theorem removePosition_conceal (k p : Nat) : (s.removePosition k p).1.conceal = s.conceal :=
  by unfold State.removePosition; dsimp only; split <;> simp
@[simp] theorem removePosition_channels (k p : Nat) : (s.removePosition k p).1.channels = s.channels :=
  by unfold State.removePosition; dsimp only; split <;> simp
@[simp] theorem removePosition_memPort (k p : Nat) : (s.removePosition k p).1.memPort = s.memPort :=
  by unfold State.removePosition; dsimp only; split <;> simp
@[simp] theorem removePosition_control (k p : Nat) : (s.removePosition k p).1.control = s.control :=
  by unfold State.removePosition; dsimp only; split <;> simp
@[simp] theorem removePosition_time (k p : Nat) : (s.removePosition k p).1.time = s.time :=
  by unfold State.removePosition; dsimp only; split <;> simp
@[simp] theorem removePosition_drawn (k p : Nat) : (s.removePosition k p).1.drawn = s.drawn :=
  by unfold State.removePosition; dsimp only; split <;> simp
@[simp] theorem removePosition_upsets (k p : Nat) : (s.removePosition k p).1.upsets = s.upsets :=
  by unfold State.removePosition; dsimp only; split <;> simp
@[simp] theorem removePosition_agenda (k p : Nat) : (s.removePosition k p).1.agenda = s.agenda :=
  by unfold State.removePosition; dsimp only; split <;> simp
@[simp] theorem removePosition_pending (k p : Nat) : (s.removePosition k p).1.pending = s.pending :=
  by unfold State.removePosition; dsimp only; split <;> simp

/-! ### finalState -/
@[simp] theorem finalState_pins (k : Nat) (f : FrameEntry → FrameEntry) : (s.finalState k f).pins = s.pins :=
  by unfold State.finalState; dsimp only; split <;> simp
@[simp] theorem finalState_port (k : Nat) (f : FrameEntry → FrameEntry) : (s.finalState k f).port = s.port :=
  by unfold State.finalState; dsimp only; split <;> simp
@[simp] theorem finalState_groups (k : Nat) (f : FrameEntry → FrameEntry) : (s.finalState k f).groups = s.groups :=
  by unfold State.finalState; dsimp only; split <;> simp
@[simp] theorem finalState_holds (k : Nat) (f : FrameEntry → FrameEntry) : (s.finalState k f).holds = s.holds :=
  by unfold State.finalState; dsimp only; split <;> simp
@[simp] theorem finalState_engine (k : Nat) (f : FrameEntry → FrameEntry) : (s.finalState k f).engine = s.engine :=
  by unfold State.finalState; dsimp only; split <;> simp
@[simp] theorem finalState_conceal (k : Nat) (f : FrameEntry → FrameEntry) : (s.finalState k f).conceal = s.conceal :=
  by unfold State.finalState; dsimp only; split <;> simp
@[simp] theorem finalState_channels (k : Nat) (f : FrameEntry → FrameEntry) : (s.finalState k f).channels = s.channels :=
  by unfold State.finalState; dsimp only; split <;> simp
@[simp] theorem finalState_memPort (k : Nat) (f : FrameEntry → FrameEntry) : (s.finalState k f).memPort = s.memPort :=
  by unfold State.finalState; dsimp only; split <;> simp
@[simp] theorem finalState_control (k : Nat) (f : FrameEntry → FrameEntry) : (s.finalState k f).control = s.control :=
  by unfold State.finalState; dsimp only; split <;> simp
@[simp] theorem finalState_time (k : Nat) (f : FrameEntry → FrameEntry) : (s.finalState k f).time = s.time :=
  by unfold State.finalState; dsimp only; split <;> simp
@[simp] theorem finalState_drawn (k : Nat) (f : FrameEntry → FrameEntry) : (s.finalState k f).drawn = s.drawn :=
  by unfold State.finalState; dsimp only; split <;> simp
@[simp] theorem finalState_upsets (k : Nat) (f : FrameEntry → FrameEntry) : (s.finalState k f).upsets = s.upsets :=
  by unfold State.finalState; dsimp only; split <;> simp
@[simp] theorem finalState_agenda (k : Nat) (f : FrameEntry → FrameEntry) : (s.finalState k f).agenda = s.agenda :=
  by unfold State.finalState; dsimp only; split <;> simp
@[simp] theorem finalState_pending (k : Nat) (f : FrameEntry → FrameEntry) : (s.finalState k f).pending = s.pending :=
  by unfold State.finalState; dsimp only; split <;> simp

/-! ### claimTest -/
@[simp] theorem claimTest_pins (ks : List Nat) : (s.claimTest ks).1.pins = s.pins :=
  by simp [State.claimTest]
@[simp] theorem claimTest_port (ks : List Nat) : (s.claimTest ks).1.port = s.port :=
  by simp [State.claimTest]
@[simp] theorem claimTest_groups (ks : List Nat) : (s.claimTest ks).1.groups = s.groups :=
  by simp [State.claimTest]
@[simp] theorem claimTest_holds (ks : List Nat) : (s.claimTest ks).1.holds = s.holds :=
  by simp [State.claimTest]
@[simp] theorem claimTest_engine (ks : List Nat) : (s.claimTest ks).1.engine = s.engine :=
  by simp [State.claimTest]
@[simp] theorem claimTest_conceal (ks : List Nat) : (s.claimTest ks).1.conceal = s.conceal :=
  by simp [State.claimTest]
@[simp] theorem claimTest_channels (ks : List Nat) : (s.claimTest ks).1.channels = s.channels :=
  by simp [State.claimTest]
@[simp] theorem claimTest_memPort (ks : List Nat) : (s.claimTest ks).1.memPort = s.memPort :=
  by simp [State.claimTest]
@[simp] theorem claimTest_control (ks : List Nat) : (s.claimTest ks).1.control = s.control :=
  by simp [State.claimTest]
@[simp] theorem claimTest_time (ks : List Nat) : (s.claimTest ks).1.time = s.time :=
  by simp [State.claimTest]
@[simp] theorem claimTest_drawn (ks : List Nat) : (s.claimTest ks).1.drawn = s.drawn :=
  by simp [State.claimTest]
@[simp] theorem claimTest_upsets (ks : List Nat) : (s.claimTest ks).1.upsets = s.upsets :=
  by simp [State.claimTest]
@[simp] theorem claimTest_agenda (ks : List Nat) : (s.claimTest ks).1.agenda = s.agenda :=
  by simp [State.claimTest]
@[simp] theorem claimTest_pending (ks : List Nat) : (s.claimTest ks).1.pending = s.pending :=
  by simp [State.claimTest]

/-! ### testQuiet -/
@[simp] theorem testQuiet_pins : (s.testQuiet).pins = s.pins :=
  by unfold State.testQuiet; split <;> rfl
@[simp] theorem testQuiet_port : (s.testQuiet).port = s.port :=
  by unfold State.testQuiet; split <;> rfl
@[simp] theorem testQuiet_map : (s.testQuiet).map = s.map :=
  by unfold State.testQuiet; split <;> rfl
@[simp] theorem testQuiet_groups : (s.testQuiet).groups = s.groups :=
  by unfold State.testQuiet; split <;> rfl
@[simp] theorem testQuiet_holds : (s.testQuiet).holds = s.holds :=
  by unfold State.testQuiet; split <;> rfl
@[simp] theorem testQuiet_conceal : (s.testQuiet).conceal = s.conceal :=
  by unfold State.testQuiet; split <;> rfl
@[simp] theorem testQuiet_channels : (s.testQuiet).channels = s.channels :=
  by unfold State.testQuiet; split <;> rfl
@[simp] theorem testQuiet_memPort : (s.testQuiet).memPort = s.memPort :=
  by unfold State.testQuiet; split <;> rfl
@[simp] theorem testQuiet_control : (s.testQuiet).control = s.control :=
  by unfold State.testQuiet; split <;> rfl
@[simp] theorem testQuiet_time : (s.testQuiet).time = s.time :=
  by unfold State.testQuiet; split <;> rfl
@[simp] theorem testQuiet_drawn : (s.testQuiet).drawn = s.drawn :=
  by unfold State.testQuiet; split <;> rfl
@[simp] theorem testQuiet_upsets : (s.testQuiet).upsets = s.upsets :=
  by unfold State.testQuiet; split <;> rfl
@[simp] theorem testQuiet_agenda : (s.testQuiet).agenda = s.agenda :=
  by unfold State.testQuiet; split <;> rfl
@[simp] theorem testQuiet_pending : (s.testQuiet).pending = s.pending :=
  by unfold State.testQuiet; split <;> rfl

/-! ### quiesce -/
@[simp] theorem quiesce_pins : (s.quiesce).pins = s.pins :=
  by unfold State.quiesce; split <;> simp
@[simp] theorem quiesce_port : (s.quiesce).port = s.port :=
  by unfold State.quiesce; split <;> simp
@[simp] theorem quiesce_map : (s.quiesce).map = s.map :=
  by unfold State.quiesce; split <;> simp
@[simp] theorem quiesce_groups : (s.quiesce).groups = s.groups :=
  by unfold State.quiesce; split <;> simp
@[simp] theorem quiesce_holds : (s.quiesce).holds = s.holds :=
  by unfold State.quiesce; split <;> simp
@[simp] theorem quiesce_conceal : (s.quiesce).conceal = s.conceal :=
  by unfold State.quiesce; split <;> simp
@[simp] theorem quiesce_channels : (s.quiesce).channels = s.channels :=
  by unfold State.quiesce; split <;> simp
@[simp] theorem quiesce_memPort : (s.quiesce).memPort = s.memPort :=
  by unfold State.quiesce; split <;> simp
@[simp] theorem quiesce_control : (s.quiesce).control = s.control :=
  by unfold State.quiesce; split <;> simp
@[simp] theorem quiesce_time : (s.quiesce).time = s.time :=
  by unfold State.quiesce; split <;> simp
@[simp] theorem quiesce_drawn : (s.quiesce).drawn = s.drawn :=
  by unfold State.quiesce; split <;> simp
@[simp] theorem quiesce_upsets : (s.quiesce).upsets = s.upsets :=
  by unfold State.quiesce; split <;> simp
@[simp] theorem quiesce_agenda : (s.quiesce).agenda = s.agenda :=
  by unfold State.quiesce; split <;> simp
@[simp] theorem quiesce_pending : (s.quiesce).pending = s.pending :=
  by unfold State.quiesce; split <;> simp

/-! ### queueJob -/
@[simp] theorem queueJob_pins (g : Nat) (k : JobKind) : (s.queueJob g k).pins = s.pins :=
  by simp [State.queueJob]
@[simp] theorem queueJob_port (g : Nat) (k : JobKind) : (s.queueJob g k).port = s.port :=
  by simp [State.queueJob]
@[simp] theorem queueJob_map (g : Nat) (k : JobKind) : (s.queueJob g k).map = s.map :=
  by simp [State.queueJob]
@[simp] theorem queueJob_groups (g : Nat) (k : JobKind) : (s.queueJob g k).groups = s.groups :=
  by simp [State.queueJob]
@[simp] theorem queueJob_holds (g : Nat) (k : JobKind) : (s.queueJob g k).holds = s.holds :=
  by simp [State.queueJob]
@[simp] theorem queueJob_conceal (g : Nat) (k : JobKind) : (s.queueJob g k).conceal = s.conceal :=
  by simp [State.queueJob]
@[simp] theorem queueJob_channels (g : Nat) (k : JobKind) : (s.queueJob g k).channels = s.channels :=
  by simp [State.queueJob]
@[simp] theorem queueJob_memPort (g : Nat) (k : JobKind) : (s.queueJob g k).memPort = s.memPort :=
  by simp [State.queueJob]
@[simp] theorem queueJob_control (g : Nat) (k : JobKind) : (s.queueJob g k).control = s.control :=
  by simp [State.queueJob]
@[simp] theorem queueJob_time (g : Nat) (k : JobKind) : (s.queueJob g k).time = s.time :=
  by simp [State.queueJob]
@[simp] theorem queueJob_drawn (g : Nat) (k : JobKind) : (s.queueJob g k).drawn = s.drawn :=
  by simp [State.queueJob]
@[simp] theorem queueJob_upsets (g : Nat) (k : JobKind) : (s.queueJob g k).upsets = s.upsets :=
  by simp [State.queueJob]
@[simp] theorem queueJob_pending (g : Nat) (k : JobKind) : (s.queueJob g k).pending = s.pending :=
  by simp [State.queueJob]

/-! ### takeJob -/
/-- While an ABORT has groups left to abandon no job is taken into service. -/
theorem takeJob_of_aborting (h : s.aborting = true) :
    s.takeJob = { s with agenda := behindAbandons [.takeJob] s.agenda } := by simp [State.takeJob, h]
/-- What `takeJob` can do: wait for an ABORT, nothing, or take the head of the queue into service. -/
theorem takeJob_cases : (s.aborting = true ∧ s.takeJob = { s with agenda := behindAbandons [.takeJob] s.agenda }) ∨
    s.takeJob = s ∨ ∃ j rest, s.aborting = false ∧ s.engine.state = .idle ∧
    s.engine.queue = j :: rest ∧ s.takeJob = { s with
      engine := { s.engine with
        state := .running, queue := rest, service := some (j.group, j.kind), cursor := some 0
        context := PositionContext.empty }
      agenda := .takeUp :: s.agenda } := by
  unfold State.takeJob
  split
  · exact .inl ⟨‹_›, rfl⟩
  · rename_i h
    split
    · exact .inr (.inr ⟨_, _, by simpa using h, ‹_›, ‹_›, rfl⟩)
    · exact .inr (.inl rfl)
@[simp] theorem takeJob_pins : (s.takeJob).pins = s.pins :=
  by unfold State.takeJob; (repeat' split) <;> simp
@[simp] theorem takeJob_port : (s.takeJob).port = s.port :=
  by unfold State.takeJob; (repeat' split) <;> simp
@[simp] theorem takeJob_map : (s.takeJob).map = s.map :=
  by unfold State.takeJob; (repeat' split) <;> simp
@[simp] theorem takeJob_groups : (s.takeJob).groups = s.groups :=
  by unfold State.takeJob; (repeat' split) <;> simp
@[simp] theorem takeJob_holds : (s.takeJob).holds = s.holds :=
  by unfold State.takeJob; (repeat' split) <;> simp
@[simp] theorem takeJob_conceal : (s.takeJob).conceal = s.conceal :=
  by unfold State.takeJob; (repeat' split) <;> simp
@[simp] theorem takeJob_channels : (s.takeJob).channels = s.channels :=
  by unfold State.takeJob; (repeat' split) <;> simp
@[simp] theorem takeJob_memPort : (s.takeJob).memPort = s.memPort :=
  by unfold State.takeJob; (repeat' split) <;> simp
@[simp] theorem takeJob_control : (s.takeJob).control = s.control :=
  by unfold State.takeJob; (repeat' split) <;> simp
@[simp] theorem takeJob_time : (s.takeJob).time = s.time :=
  by unfold State.takeJob; (repeat' split) <;> simp
@[simp] theorem takeJob_drawn : (s.takeJob).drawn = s.drawn :=
  by unfold State.takeJob; (repeat' split) <;> simp
@[simp] theorem takeJob_upsets : (s.takeJob).upsets = s.upsets :=
  by unfold State.takeJob; (repeat' split) <;> simp
@[simp] theorem takeJob_pending : (s.takeJob).pending = s.pending :=
  by unfold State.takeJob; (repeat' split) <;> simp

/-! ### noticePosition -/
@[simp] theorem noticePosition_pins (g p : Nat) : (s.noticePosition g p).pins = s.pins :=
  by unfold State.noticePosition; (repeat' split) <;> simp
@[simp] theorem noticePosition_port (g p : Nat) : (s.noticePosition g p).port = s.port :=
  by unfold State.noticePosition; (repeat' split) <;> simp
@[simp] theorem noticePosition_groups (g p : Nat) : (s.noticePosition g p).groups = s.groups :=
  by unfold State.noticePosition; (repeat' split) <;> simp
@[simp] theorem noticePosition_engine (g p : Nat) : (s.noticePosition g p).engine = s.engine :=
  by unfold State.noticePosition; (repeat' split) <;> simp
@[simp] theorem noticePosition_conceal (g p : Nat) : (s.noticePosition g p).conceal = s.conceal :=
  by unfold State.noticePosition; (repeat' split) <;> simp
@[simp] theorem noticePosition_channels (g p : Nat) : (s.noticePosition g p).channels = s.channels :=
  by unfold State.noticePosition; (repeat' split) <;> simp
@[simp] theorem noticePosition_memPort (g p : Nat) : (s.noticePosition g p).memPort = s.memPort :=
  by unfold State.noticePosition; (repeat' split) <;> simp
@[simp] theorem noticePosition_control (g p : Nat) : (s.noticePosition g p).control = s.control :=
  by unfold State.noticePosition; (repeat' split) <;> simp
@[simp] theorem noticePosition_time (g p : Nat) : (s.noticePosition g p).time = s.time :=
  by unfold State.noticePosition; (repeat' split) <;> simp
@[simp] theorem noticePosition_drawn (g p : Nat) : (s.noticePosition g p).drawn = s.drawn :=
  by unfold State.noticePosition; (repeat' split) <;> simp
@[simp] theorem noticePosition_upsets (g p : Nat) : (s.noticePosition g p).upsets = s.upsets :=
  by unfold State.noticePosition; (repeat' split) <;> simp
@[simp] theorem noticePosition_pending (g p : Nat) : (s.noticePosition g p).pending = s.pending :=
  by unfold State.noticePosition; (repeat' split) <;> simp

/-! ### insertRuns -/
@[simp] theorem insertRuns_pins (k : Nat) (l : Positions) : (s.insertRuns k l).pins = s.pins :=
  by unfold State.insertRuns; split <;> simp
@[simp] theorem insertRuns_port (k : Nat) (l : Positions) : (s.insertRuns k l).port = s.port :=
  by unfold State.insertRuns; split <;> simp
@[simp] theorem insertRuns_groups (k : Nat) (l : Positions) : (s.insertRuns k l).groups = s.groups :=
  by unfold State.insertRuns; split <;> simp
@[simp] theorem insertRuns_holds (k : Nat) (l : Positions) : (s.insertRuns k l).holds = s.holds :=
  by unfold State.insertRuns; split <;> simp
@[simp] theorem insertRuns_engine (k : Nat) (l : Positions) : (s.insertRuns k l).engine = s.engine :=
  by unfold State.insertRuns; split <;> simp
@[simp] theorem insertRuns_conceal (k : Nat) (l : Positions) : (s.insertRuns k l).conceal = s.conceal :=
  by unfold State.insertRuns; split <;> simp
@[simp] theorem insertRuns_channels (k : Nat) (l : Positions) : (s.insertRuns k l).channels = s.channels :=
  by unfold State.insertRuns; split <;> simp
@[simp] theorem insertRuns_memPort (k : Nat) (l : Positions) : (s.insertRuns k l).memPort = s.memPort :=
  by unfold State.insertRuns; split <;> simp
@[simp] theorem insertRuns_control (k : Nat) (l : Positions) : (s.insertRuns k l).control = s.control :=
  by unfold State.insertRuns; split <;> simp
@[simp] theorem insertRuns_time (k : Nat) (l : Positions) : (s.insertRuns k l).time = s.time :=
  by unfold State.insertRuns; split <;> simp
@[simp] theorem insertRuns_drawn (k : Nat) (l : Positions) : (s.insertRuns k l).drawn = s.drawn :=
  by unfold State.insertRuns; split <;> simp
@[simp] theorem insertRuns_upsets (k : Nat) (l : Positions) : (s.insertRuns k l).upsets = s.upsets :=
  by unfold State.insertRuns; split <;> simp
@[simp] theorem insertRuns_agenda (k : Nat) (l : Positions) : (s.insertRuns k l).agenda = s.agenda :=
  by unfold State.insertRuns; split <;> simp
@[simp] theorem insertRuns_pending (k : Nat) (l : Positions) : (s.insertRuns k l).pending = s.pending :=
  by unfold State.insertRuns; split <;> simp

/-! ### answerHolds -/

theorem fold_turnAway {α : Type} (f : State → α) (h : ∀ s t, f (State.turnAway s t) = f s) (l : List Held) (s : State) :
    f (l.foldl (fun s h => s.turnAway h.tag) s) = f s :=
  fold_proj f _ (fun s x => h s x.tag) l s
@[simp] theorem answerHolds_pins : s.answerHolds.pins = s.pins :=
  fold_turnAway (·.pins) (fun s t => turnAway_pins s t) s.holds s
@[simp] theorem answerHolds_map : s.answerHolds.map = s.map :=
  fold_turnAway (·.map) (fun s t => turnAway_map s t) s.holds s
@[simp] theorem answerHolds_groups : s.answerHolds.groups = s.groups :=
  fold_turnAway (·.groups) (fun s t => turnAway_groups s t) s.holds s
@[simp] theorem answerHolds_engine : s.answerHolds.engine = s.engine :=
  fold_turnAway (·.engine) (fun s t => turnAway_engine s t) s.holds s
@[simp] theorem answerHolds_conceal : s.answerHolds.conceal = s.conceal :=
  fold_turnAway (·.conceal) (fun s t => turnAway_conceal s t) s.holds s
@[simp] theorem answerHolds_channels : s.answerHolds.channels = s.channels :=
  fold_turnAway (·.channels) (fun s t => turnAway_channels s t) s.holds s
@[simp] theorem answerHolds_memPort : s.answerHolds.memPort = s.memPort :=
  fold_turnAway (·.memPort) (fun s t => turnAway_memPort s t) s.holds s
@[simp] theorem answerHolds_control : s.answerHolds.control = s.control :=
  fold_turnAway (·.control) (fun s t => turnAway_control s t) s.holds s
@[simp] theorem answerHolds_time : s.answerHolds.time = s.time :=
  fold_turnAway (·.time) (fun s t => turnAway_time s t) s.holds s
@[simp] theorem answerHolds_drawn : s.answerHolds.drawn = s.drawn :=
  fold_turnAway (·.drawn) (fun s t => turnAway_drawn s t) s.holds s
@[simp] theorem answerHolds_upsets : s.answerHolds.upsets = s.upsets :=
  fold_turnAway (·.upsets) (fun s t => turnAway_upsets s t) s.holds s
@[simp] theorem answerHolds_agenda : s.answerHolds.agenda = s.agenda :=
  fold_turnAway (·.agenda) (fun s t => turnAway_agenda s t) s.holds s
@[simp] theorem answerHolds_pending : s.answerHolds.pending = s.pending :=
  fold_turnAway (·.pending) (fun s t => turnAway_pending s t) s.holds s
@[simp] theorem answerHolds_holds : s.answerHolds.holds = [] := rfl

/-! ### What the control and channel updates leave in the field they write -/

@[simp] theorem setControl_control (f : Control → Control) : (s.setControl f).control = f s.control := by
  unfold State.setControl; dsimp only; split <;> simp

@[simp] theorem setChannel_channels (c : Fin 8) (f : Channel → Channel) :
    (s.setChannel c f).channels = s.channels.set c (f (s.channel c)) := by
  unfold State.setChannel; dsimp only; split <;> simp

theorem channel_eq (c : Fin 8) : s.channel c = s.channels[c] := rfl

/-- The channel written reads as written, the others as before. -/
theorem setChannel_channel (c d : Fin 8) (f : Channel → Channel) :
    (s.setChannel c f).channel d = if c = d then f (s.channel c) else s.channel d := by
  simp [State.channel, Vector.getElem_set, Fin.ext_iff]

/-! ### haltWork and enterFaulted: what a warm clear and a fault entry begin with leave alone -/

@[simp] theorem haltWork_pins : s.haltWork.pins = s.pins := by simp [State.haltWork]
@[simp] theorem haltWork_conceal : s.haltWork.conceal = s.conceal := by simp [State.haltWork]
@[simp] theorem haltWork_memPort : s.haltWork.memPort = s.memPort := by simp [State.haltWork]
@[simp] theorem haltWork_time : s.haltWork.time = s.time := by simp [State.haltWork]
@[simp] theorem haltWork_drawn : s.haltWork.drawn = s.drawn := by simp [State.haltWork]
@[simp] theorem haltWork_upsets : s.haltWork.upsets = s.upsets := by simp [State.haltWork]
@[simp] theorem haltWork_agenda : s.haltWork.agenda = s.agenda := by simp [State.haltWork]
@[simp] theorem haltWork_pending : s.haltWork.pending = s.pending := by simp [State.haltWork]

@[simp] theorem enterFaulted_pins : s.enterFaulted.pins = s.pins := by simp [State.enterFaulted]
@[simp] theorem enterFaulted_conceal : s.enterFaulted.conceal = s.conceal := by simp [State.enterFaulted]
@[simp] theorem enterFaulted_time : s.enterFaulted.time = s.time := by simp [State.enterFaulted]
@[simp] theorem enterFaulted_drawn : s.enterFaulted.drawn = s.drawn := by simp [State.enterFaulted]
@[simp] theorem enterFaulted_upsets : s.enterFaulted.upsets = s.upsets := by simp [State.enterFaulted]
@[simp] theorem enterFaulted_agenda : s.enterFaulted.agenda = s.agenda := by simp [State.enterFaulted]
@[simp] theorem enterFaulted_pending : s.enterFaulted.pending = s.pending := by simp [State.enterFaulted]

/-! ### raise -/

@[simp] theorem raise_pins (r : FaultRecord) : (s.raise r).pins = s.pins := by
  unfold State.raise; dsimp only; (repeat' split) <;> simp
@[simp] theorem raise_conceal (r : FaultRecord) : (s.raise r).conceal = s.conceal := by
  unfold State.raise; dsimp only; (repeat' split) <;> simp
@[simp] theorem raise_time (r : FaultRecord) : (s.raise r).time = s.time := by
  unfold State.raise; dsimp only; (repeat' split) <;> simp
@[simp] theorem raise_upsets (r : FaultRecord) : (s.raise r).upsets = s.upsets := by
  unfold State.raise; dsimp only; (repeat' split) <;> simp
@[simp] theorem raise_agenda (r : FaultRecord) : (s.raise r).agenda = s.agenda := by
  unfold State.raise; dsimp only; (repeat' split) <;> simp
@[simp] theorem raise_pending (r : FaultRecord) : (s.raise r).pending = s.pending := by
  unfold State.raise; dsimp only; (repeat' split) <;> simp

/-- A contained fault touches the log, the reports and the memory port alone (R203). -/
theorem raise_contained (r : FaultRecord) (h : r.kind.faultClass = .contained) :
    s.raise r = if s.fillsRecord r then (s.logFault r).post r.report else s.logFault r := by
  unfold State.raise; simp [h]

theorem raise_contained_port (r : FaultRecord) (h : r.kind.faultClass = .contained) :
    (s.raise r).port = s.port := by
  rw [raise_contained s r h]; split <;> simp
theorem raise_contained_map (r : FaultRecord) (h : r.kind.faultClass = .contained) :
    (s.raise r).map = s.map := by
  rw [raise_contained s r h]; split <;> simp
theorem raise_contained_groups (r : FaultRecord) (h : r.kind.faultClass = .contained) :
    (s.raise r).groups = s.groups := by
  rw [raise_contained s r h]; split <;> simp
theorem raise_contained_holds (r : FaultRecord) (h : r.kind.faultClass = .contained) :
    (s.raise r).holds = s.holds := by
  rw [raise_contained s r h]; split <;> simp
theorem raise_contained_engine (r : FaultRecord) (h : r.kind.faultClass = .contained) :
    (s.raise r).engine = s.engine := by
  rw [raise_contained s r h]; split <;> simp
theorem raise_contained_channels (r : FaultRecord) (h : r.kind.faultClass = .contained) :
    (s.raise r).channels = s.channels := by
  rw [raise_contained s r h]; split <;> simp

end Sys2Proof.Machine
end

