-- ==== Sys2Proof/Laws/Tables.lean ====
section
/-! SUPPORT. Tables: reading what was put or removed, the canonical form, and the lowest free key. -/
namespace Sys2Proof.Machine

variable {α : Type}

/-- The entry put under a key is the one read there; other keys read as before. -/
theorem Table.get_put (k : Nat) (a : α) : ∀ (t : Table α) (j : Nat),
    Table.get (Table.put k a t) j = if k = j then some a else Table.get t j
  | [], j => by simp [Table.put, Table.get]
  | (i, b) :: t, j => by
    unfold Table.put
    split
    · simp [Table.get]
    · split
      · rename_i h; subst h; simp only [Table.get]; split <;> simp_all
      · simp only [Table.get, Table.get_put k a t j]; split <;> simp_all

/-- A removed key reads as free; other keys read as before. -/
theorem Table.get_remove (k : Nat) : ∀ (t : Table α) (j : Nat),
    Table.get (Table.remove k t) j = if k = j then none else Table.get t j
  | [], j => by simp [Table.remove, Table.get]
  | (i, b) :: t, j => by
    have ih := Table.get_remove k t j
    unfold Table.remove at ih ⊢
    by_cases h : i = k
    · subst h
      simp only [List.filter_cons, ne_eq, not_true_eq_false, decide_false, Table.get]
      split <;> simp_all
    · simp only [List.filter_cons, ne_eq, h, not_false_eq_true, decide_true, if_true, Table.get] at ih ⊢
      rw [ih]
      by_cases hk : k = j
      · subst hk; simp [h]
      · simp [hk]

/-- The canonical form, said of all pairs at once: the keys are strictly rising. -/
theorem Table.wf_iff : ∀ (t : Table α), Table.wf t = true ↔ (t.map (·.1)).Pairwise (· < ·)
  | [] => by simp [Table.wf]
  | [_] => by simp [Table.wf]
  | (j, x) :: (k, b) :: t => by
    have ih := Table.wf_iff ((k, b) :: t)
    simp only [Table.wf, Bool.and_eq_true, decide_eq_true_eq, ih, List.map_cons, List.pairwise_cons,
      List.mem_cons, List.mem_map]
    constructor
    · rintro ⟨h1, h2, h3⟩
      refine ⟨?_, h2, h3⟩
      rintro a (rfl | ⟨e, he, rfl⟩)
      · exact h1
      · exact Nat.lt_trans h1 (h2 _ ⟨e, he, rfl⟩)
    · rintro ⟨h1, h2, h3⟩
      exact ⟨h1 k (Or.inl rfl), h2, h3⟩

/-- The keys of a table with one put: the key, and those there before. -/
theorem Table.mem_keys_put (k : Nat) (a : α) : ∀ (t : Table α) (j : Nat),
    j ∈ (Table.put k a t).map (·.1) ↔ j = k ∨ j ∈ t.map (·.1)
  | [], j => by simp [Table.put]
  | (i, b) :: t, j => by
    unfold Table.put
    split
    · simp
    · split
      · rename_i h; subst h; simp
      · have ih := Table.mem_keys_put k a t j
        simp only [List.map_cons, List.mem_cons, ih, or_left_comm]

/-- Putting keeps the canonical form. -/
theorem Table.wf_put (k : Nat) (a : α) : ∀ (t : Table α), Table.wf t = true → Table.wf (Table.put k a t) = true
  | [], _ => rfl
  | (i, b) :: t, h => by
    rw [Table.wf_iff] at h ⊢
    unfold Table.put
    simp only [List.map_cons, List.pairwise_cons, List.mem_map] at h
    split
    · rename_i hk
      simp only [List.map_cons, List.pairwise_cons, List.mem_cons, List.mem_map]
      refine ⟨?_, h.1, h.2⟩
      rintro j (rfl | ⟨e, he, rfl⟩)
      · exact hk
      · exact Nat.lt_trans hk (h.1 _ ⟨e, he, rfl⟩)
    · split
      · rename_i hk; subst hk
        simp only [List.map_cons, List.pairwise_cons, List.mem_map]
        exact ⟨h.1, h.2⟩
      · rename_i h1 h2
        have ih := (Table.wf_iff _).1 (Table.wf_put k a t ((Table.wf_iff t).2 h.2))
        simp only [List.map_cons, List.pairwise_cons]
        refine ⟨?_, ih⟩
        intro j hj
        rcases (Table.mem_keys_put k a t j).1 hj with rfl | hj
        · omega
        · exact h.1 j (List.mem_map.1 hj)

/-- Removing keeps the canonical form. -/
theorem Table.wf_remove (k : Nat) (t : Table α) (h : Table.wf t = true) : Table.wf (Table.remove k t) = true := by
  rw [Table.wf_iff] at h ⊢
  exact h.sublist ((List.filter_sublist).map _)

/-- Changing entries in place keeps the canonical form. -/
theorem Table.wf_map (f : Nat × α → Nat × α) (hf : ∀ e, (f e).1 = e.1) (t : Table α)
    (h : Table.wf t = true) : Table.wf (t.map f) = true := by
  rw [Table.wf_iff] at h ⊢
  simpa [Function.comp_def, hf] using h

/-- The key handed out is below the bound and free. -/
theorem Table.lowestFree_spec (bound : Nat) (t : Table α) (k : Nat) (h : Table.lowestFree bound t = some k) :
    k < bound ∧ Table.get t k = none := by
  unfold Table.lowestFree at h
  refine ⟨List.mem_range.1 (List.mem_of_find?_eq_some h), ?_⟩
  simpa using List.find?_some h

/-- Every key below the one handed out is in use. -/
theorem Table.lowestFree_least (bound : Nat) (t : Table α) (k : Nat)
    (h : Table.lowestFree bound t = some k) (j : Nat) (hj : j < k) : (Table.get t j).isSome = true := by
  unfold Table.lowestFree at h
  have := (List.find?_range_eq_some.1 h).2.2 j hj
  simpa using this

end Sys2Proof.Machine
end

