-- ==== Sys2Proof/Laws/Work.lean ====
section
/-! SUPPORT. The work of a step: tasks (log 11), the order of SERVICE requests (log 8), and what a settled step leaves
in each field. -/
namespace Sys2Proof.Machine

/-! ## Tasks -/

/-- With no task left nothing is done. -/
theorem run_done (k : Nat) (s : State) (h : s.agenda = []) : s.run k = s := by
  cases k <;> simp [State.run, h]

/-- The first task is performed against the state without it. -/
theorem run_task (k : Nat) (s : State) (t : Task) (ts : List Task) (h : s.agenda = t :: ts) :
    s.run (k + 1) = State.run k (State.perform { s with agenda := ts } t) := by
  simp [State.run, h]

/-- The first task of a step, with the work bound as a step meets it. -/
theorem run_first (s : State) (t : Task) (ts : List Task) (h : s.agenda = t :: ts) :
    s.run Config.stepWork = State.run (Config.stepWork - 1) (State.perform { s with agenda := ts } t) :=
  run_task (Config.stepWork - 1) s t ts h

/-- With no request to be presented, work put behind it stands in front. -/
theorem behindPresent_none (ts agenda : List Task) (h : ∀ t ∈ agenda, t.presents = false) :
    behindPresent ts agenda = ts ++ agenda := by
  have h1 : agenda.findIdx Task.presents = agenda.length := List.findIdx_eq_length.mpr (by simpa using h)
  simp [behindPresent, h1]

/-- Between steps, work put behind the presenting of a request is all the work there is. -/
@[simp] theorem behindPresent_nil (ts : List Task) : behindPresent ts [] = ts := by simp [behindPresent]

/-- Work put behind the presenting of a request stands directly behind it, whatever else stands before
(R49). -/
theorem behindPresent_at (ts before after : List Task) (tag : Nat) (h : ∀ t ∈ before, t.presents = false) :
    behindPresent ts (before ++ .present tag :: after) = before ++ .present tag :: (ts ++ after) := by
  have h1 : (before ++ Task.present tag :: after).findIdx Task.presents = before.length := by
    rw [List.findIdx_append]
    have : before.findIdx Task.presents = before.length := List.findIdx_eq_length.mpr (by simpa using h)
    simp [this, List.findIdx_cons, Task.presents]
  simp [behindPresent, h1, List.take_append, List.drop_append, List.take_of_length_le,
    List.drop_eq_nil_of_le]

/-! ## The order of SERVICE requests -/

/-- Arranging neither loses nor makes a request (R182). -/
theorem arrange_perm : ∀ (k : Nat) (placed rs : List MemRequest), (arrange k placed rs).1.Perm (placed ++ rs)
  | _, placed, [] => by simp [arrange]
  | k, placed, r :: rs => by
    unfold arrange
    dsimp only
    split
    · simpa using arrange_perm k (placed ++ [r]) rs
    · refine (arrange_perm (k + 1) _ rs).trans ?_
      generalize placed.length - min (Config.freeOrder k) _ = i
      have h1 : (List.take i placed ++ r :: List.drop i placed ++ rs).Perm (r :: (placed ++ rs)) := by
        have := (List.perm_middle (a := r) (l₁ := List.take i placed) (l₂ := List.drop i placed ++ rs))
        rw [← List.append_assoc (List.take i placed), List.take_append_drop] at this
        simpa using this
      exact h1.trans List.perm_middle.symm

/-- Nothing to arrange. -/
@[simp] theorem arrange_nil (k : Nat) (placed : List MemRequest) : arrange k placed [] = (placed, k) := rfl

/-- A single request stands where it was presented. -/
@[simp] theorem arrange_one (k : Nat) (r : MemRequest) : arrange k [] [r] = ([r], k) := by
  simp [arrange, overtakable]

/-- The SERVICE list after a step holds what was presented, and what stood there before stands first, in
its order (R182). -/
theorem arrangeService_prefix (kept : Nat) (s : State) :
    ∃ l, (s.arrangeService kept).memPort.serviceList = s.memPort.serviceList.take kept ++ l ∧
      l.Perm (s.memPort.serviceList.drop kept) :=
  ⟨_, rfl, by simpa using arrange_perm s.drawn [] (s.memPort.serviceList.drop kept)⟩

/-- The SERVICE list after a step holds the requests it held, in some order. -/
theorem arrangeService_perm (kept : Nat) (s : State) :
    (s.arrangeService kept).memPort.serviceList.Perm s.memPort.serviceList := by
  obtain ⟨l, hl, hp⟩ := arrangeService_prefix kept s
  rw [hl]
  have h := (List.Perm.refl (s.memPort.serviceList.take kept)).append hp
  rwa [List.take_append_drop] at h

/-- A step that presents no SERVICE request leaves the list as it is. -/
theorem arrangeService_none (kept : Nat) (s : State) (h : s.memPort.serviceList.length ≤ kept) :
    s.arrangeService kept = s := by
  unfold State.arrangeService
  simp [List.drop_eq_nil_of_le h, List.take_of_length_le h]

/-- A step that presents one SERVICE request appends it. -/
theorem arrangeService_single (s : State) (l : List MemRequest) (r : MemRequest)
    (h : s.memPort.serviceList = l ++ [r]) : s.arrangeService l.length = s := by
  unfold State.arrangeService
  simp [h]
  rw [← h]

/-! ## A settled step -/

variable (before after : State)

/-- A step that leaves no task settles at once. -/
theorem settle_done (h : after.agenda = []) :
    before.settle after =
      (after.arrangeService before.memPort.serviceList.length).driveInterrupt := by
  have h2 : (after.arrangeService before.memPort.serviceList.length).agenda = [] := h
  unfold State.settle
  rw [run_done _ _ h]
  dsimp only
  rw [← h2]

/-- A step that leaves no task and presents no SERVICE request only drives IRQ_N. -/
theorem settle_quiet (h : after.agenda = [])
    (hs : after.memPort.serviceList.length ≤ before.memPort.serviceList.length) :
    before.settle after = after.driveInterrupt := by
  rw [settle_done _ _ h, arrangeService_none _ _ hs]

/-- A step with a task performs it first. -/
theorem settle_task (t : Task) (ts : List Task) (h : after.agenda = t :: ts) :
    before.settle after = State.driveInterrupt { ((State.run (Config.stepWork - 1)
      (State.perform { after with agenda := ts } t)).arrangeService before.memPort.serviceList.length)
      with agenda := [] } := by
  unfold State.settle
  rw [run_first _ t ts h]

/-- No task outlives its step. -/
@[simp] theorem settle_agenda : (before.settle after).agenda = [] := rfl

/-- IRQ_N is at its level after every step (R206). -/
theorem settle_irq : (before.settle after).pins.irqLow = (before.settle after).interrupt := rfl

theorem settle_port (h : after.agenda = []) : (before.settle after).port = after.port := by
  rw [settle_done _ _ h]; rfl
theorem settle_map (h : after.agenda = []) : (before.settle after).map = after.map := by
  rw [settle_done _ _ h]; rfl
theorem settle_groups (h : after.agenda = []) : (before.settle after).groups = after.groups := by
  rw [settle_done _ _ h]; rfl
theorem settle_holds (h : after.agenda = []) : (before.settle after).holds = after.holds := by
  rw [settle_done _ _ h]; rfl
theorem settle_engine (h : after.agenda = []) : (before.settle after).engine = after.engine := by
  rw [settle_done _ _ h]; rfl
theorem settle_conceal (h : after.agenda = []) : (before.settle after).conceal = after.conceal := by
  rw [settle_done _ _ h]; rfl
theorem settle_channels (h : after.agenda = []) : (before.settle after).channels = after.channels := by
  rw [settle_done _ _ h]; rfl
theorem settle_control (h : after.agenda = []) : (before.settle after).control = after.control := by
  rw [settle_done _ _ h]; rfl
theorem settle_time (h : after.agenda = []) : (before.settle after).time = after.time := by
  rw [settle_done _ _ h]; rfl
theorem settle_upsets (h : after.agenda = []) : (before.settle after).upsets = after.upsets := by
  rw [settle_done _ _ h]; rfl
theorem settle_pending (h : after.agenda = []) : (before.settle after).pending = after.pending := by
  rw [settle_done _ _ h]; rfl

theorem settle_pins (h : after.agenda = []) :
    (before.settle after).pins = { after.pins with irqLow := after.interrupt } := by
  rw [settle_done _ _ h]; rfl

theorem settle_passList (h : after.agenda = []) :
    (before.settle after).memPort.passList = after.memPort.passList := by
  rw [settle_done _ _ h]; rfl

theorem settle_engineList (h : after.agenda = []) :
    (before.settle after).memPort.engineList = after.memPort.engineList := by
  rw [settle_done _ _ h]; rfl

theorem settle_tags (h : after.agenda = []) : (before.settle after).memPort.tags = after.memPort.tags := by
  rw [settle_done _ _ h]; rfl

theorem settle_issued (h : after.agenda = []) :
    (before.settle after).memPort.issued = after.memPort.issued := by
  rw [settle_done _ _ h]; rfl

theorem settle_lastServed (h : after.agenda = []) :
    (before.settle after).memPort.lastServed = after.memPort.lastServed := by
  rw [settle_done _ _ h]; rfl

/-- The SERVICE list of a settled step holds what the step left there, in some order. -/
theorem settle_serviceList (h : after.agenda = []) :
    (before.settle after).memPort.serviceList.Perm after.memPort.serviceList := by
  rw [settle_done _ _ h]; exact arrangeService_perm _ _

/-! ## Release passes -/

/-- What an event marks: the tags of the held entries that pass its test (R68). -/
theorem mem_heldTags (s : State) (p : Held → Bool) (k : Nat) :
    k ∈ s.heldTags p ↔ ∃ h ∈ s.holds, p h = true ∧ h.tag = k := by
  simp [State.heldTags, and_assoc]

/-- A pass of which no entry is left in the list is over (R68). -/
theorem releaseNext_none (s : State) (marked : List Nat) (h : ∀ f ∈ s.holds, f.tag ∉ marked) :
    s.releaseNext marked = s := by
  have none : s.holds.find? (fun f => marked.contains f.tag) = none := by
    simpa [List.find?_eq_none] using h
  rw [State.releaseNext, none]

/-- The pass takes the first marked entry in queue order; its followers of the same page are marked as well
(R57, R68, R73). -/
theorem releaseNext_first (s : State) (marked : List Nat) (before after : List Held) (h : Held)
    (holds : s.holds = before ++ h :: after) (mark : h.tag ∈ marked) (first : ∀ f ∈ before, f.tag ∉ marked) :
    s.releaseNext marked = (s.leaveHolds h.tag).push [.classify h.tag,
      .releasePass (marked.filter (· ≠ h.tag) ++ s.heldTags (fun f => f.waitsOn == .tag h.tag))] := by
  have found : s.holds.find? (fun f => marked.contains f.tag) = some h := by
    rw [holds, List.find?_append]
    have none : before.find? (fun f => marked.contains f.tag) = none := by
      simpa [List.find?_eq_none] using first
    rw [none, Option.none_or, List.find?_cons_of_pos (by simpa using mark)]
  rw [State.releaseNext, found]

end Sys2Proof.Machine
end

