-- ==== Sys2Proof/Laws/Leads.lean ====
section
/-! SUPPORT. What every operation of a step can do, said once: it leaves the queue and the upsets as they were, and it
keeps what `State.Kept` says. One lemma per operation, in the form "from a state reached, to the state after". -/
namespace Sys2Proof.Machine

/-- A step's work leads from one state to another. -/
structure Leads (s t : State) : Prop where
  pending : t.pending = s.pending
  upsets : t.upsets = s.upsets
  kept : s.Kept → t.Kept

theorem Leads.refl (s : State) : Leads s s := ⟨rfl, rfl, id⟩

theorem Leads.trans {s t u : State} (h : Leads s t) (k : Leads t u) : Leads s u :=
  ⟨k.pending.trans h.pending, k.upsets.trans h.upsets, fun x => k.kept (h.kept x)⟩

variable {s t : State}

/-! ## Updates of one block -/

theorem leads_port (p : RecorderPort) (h : Leads s t)
    (hp : Table.wf t.port.accepted = true → Table.wf p.accepted = true) :
    Leads s { t with port := p } :=
  ⟨h.pending, h.upsets, fun x => { h.kept x with accepted := hp (h.kept x).accepted }⟩

theorem leads_map (m : FrameMap) (h : Leads s t)
    (hm : Table.wf t.map.entries = true → Table.wf m.entries = true) : Leads s { t with map := m } :=
  ⟨h.pending, h.upsets, fun x => { h.kept x with frames := hm (h.kept x).frames }⟩

theorem leads_groups (g : GroupTable) (h : Leads s t)
    (hg : Table.wf t.groups.entries = true → Table.wf g.entries = true) : Leads s { t with groups := g } :=
  ⟨h.pending, h.upsets, fun x => { h.kept x with groups := hg (h.kept x).groups }⟩

theorem leads_holds (l : List Held) (h : Leads s t)
    (hl : t.holds.length ≤ Config.holdCapacity → l.length ≤ Config.holdCapacity) :
    Leads s { t with holds := l } :=
  ⟨h.pending, h.upsets, fun x => { h.kept x with holds := hl (h.kept x).holds }⟩

theorem leads_engine (e : Engine) (h : Leads s t)
    (hf : t.engine.inFlight.length ≤ Config.engineInFlight → e.inFlight.length ≤ Config.engineInFlight)
    (ht : t.engine.tokens ≤ t.tokenCeiling → e.tokens ≤ t.tokenCeiling) :
    Leads s { t with engine := e } :=
  ⟨h.pending, h.upsets, fun x =>
    { h.kept x with inFlight := hf (h.kept x).inFlight, tokens := ht (h.kept x).tokens }⟩

theorem leads_conceal (c : Concealment) (h : Leads s t)
    (hc : t.conceal.table.length ≤ Config.concealCapacity → c.table.length ≤ Config.concealCapacity) :
    Leads s { t with conceal := c } :=
  ⟨h.pending, h.upsets, fun x => { h.kept x with conceal := hc (h.kept x).conceal }⟩

theorem leads_channels (c : Vector Channel 8) (h : Leads s t) : Leads s { t with channels := c } :=
  ⟨h.pending, h.upsets, fun x => { h.kept x with }⟩

theorem leads_memPort (p : MemoryPort) (h : Leads s t) (hp : p.tags = t.memPort.tags) :
    Leads s { t with memPort := p } :=
  ⟨h.pending, h.upsets, fun x => { h.kept x with tags := by rw [hp]; exact (h.kept x).tags }⟩

theorem leads_tags (p : MemoryPort) (h : Leads s t)
    (hp : (Table.wf t.memPort.tags = true ∧ ∀ e ∈ t.memPort.tags, e.1 < Config.tagCount) →
      Table.wf p.tags = true ∧ ∀ e ∈ p.tags, e.1 < Config.tagCount) :
    Leads s { t with memPort := p } :=
  ⟨h.pending, h.upsets, fun x => { h.kept x with tags := hp (h.kept x).tags }⟩

theorem leads_control (c : Control) (h : Leads s t) (hc : c.config = t.control.config)
    (h1 : t.control.contained.sound → c.contained.sound)
    (h2 : t.control.uncontained.sound → c.uncontained.sound) : Leads s { t with control := c } :=
  ⟨h.pending, h.upsets, fun x =>
    { h.kept x with
      tokens := by
        have := (h.kept x).tokens
        simpa [State.tokenCeiling, hc] using this
      contained := h1 (h.kept x).contained
      uncontained := h2 (h.kept x).uncontained }⟩

theorem leads_agenda (l : List Task) (h : Leads s t) : Leads s { t with agenda := l } :=
  ⟨h.pending, h.upsets, fun x => { h.kept x with }⟩

theorem leads_drawn (n : Nat) (h : Leads s t) : Leads s { t with drawn := n } :=
  ⟨h.pending, h.upsets, fun x => { h.kept x with }⟩

theorem leads_pins (p : Pins) (h : Leads s t) : Leads s { t with pins := p } :=
  ⟨h.pending, h.upsets, fun x => { h.kept x with }⟩

theorem leads_time (n : Nat) (h : Leads s t) : Leads s { t with time := n } :=
  ⟨h.pending, h.upsets, fun x => { h.kept x with }⟩

theorem ite_leads {c : Prop} [Decidable c] {u v : State} (hu : Leads s u) (hv : Leads s v) :
    Leads s (if c then u else v) := by
  split
  · exact hu
  · exact hv

theorem foldl_leads {α : Type} (f : State → α → State) (l : List α)
    (hf : ∀ u a, Leads s u → Leads s (f u a)) (h : Leads s t) : Leads s (l.foldl f t) := by
  induction l generalizing t with
  | nil => exact h
  | cons a l ih => exact ih (hf t a h)

/-! ## The operations -/


theorem push_leads (ts : List Task) (h : Leads s t) : Leads s (t.push ts) := leads_agenda _ h

theorem pushBehind_leads (ts : List Task) (h : Leads s t) : Leads s (t.pushBehind ts) := leads_agenda _ h

theorem putFrame_leads (slot : Nat) (e : FrameEntry) (h : Leads s t) : Leads s (t.putFrame slot e) := by
  unfold State.putFrame
  refine leads_map _ h fun x => ?_
  dsimp only
  split
  · exact Table.wf_remove _ _ x
  · exact Table.wf_put _ _ _ x

theorem putGroup_leads (g : Nat) (grp : Group) (h : Leads s t) : Leads s (t.putGroup g grp) :=
  leads_groups _ h (Table.wf_put _ _ _)

theorem modGroup_leads (g : Nat) (f : Group → Group) (lead : Leads s t) :
    Leads s (State.modGroup t g f) := by
  unfold State.modGroup
  try extract_lets
  repeat' first
    | (with_reducible first | exact Leads.refl _ | assumption | apply putGroup_leads | apply foldl_leads | apply ite_leads)
    | split

theorem dropGroup_leads (g : Nat) (h : Leads s t) : Leads s (t.dropGroup g) :=
  leads_groups _ h (Table.wf_remove _ _)

theorem putAccepted_leads (tag : Nat) (a : Accepted) (h : Leads s t) : Leads s (t.putAccepted tag a) :=
  leads_port _ h (Table.wf_put _ _ _)

theorem send_leads (r : Response) (h : Leads s t) : Leads s (t.send r) := leads_port _ h id

theorem respond_leads (tag : Nat) (status : ResponseStatus) (beats : List Beat) (h : Leads s t) :
    Leads s (t.respond tag status beats) := leads_port _ h (Table.wf_remove _ _)

theorem turnAway_leads (tag : Nat) (lead : Leads s t) :
    Leads s (State.turnAway t tag) := by
  unfold State.turnAway
  try extract_lets
  repeat' first
    | (with_reducible first | exact Leads.refl _ | assumption | apply respond_leads | apply foldl_leads | apply ite_leads)
    | split

theorem fenceSlots_leads (slots : List Nat) (h : Leads s t) : Leads s (t.fenceSlots slots) := by
  refine leads_port _ h (Table.wf_map _ (fun e => ?_) _)
  dsimp only
  (repeat' split) <;> rfl

theorem presentMem_leads (r : MemRequest) (h : Leads s t) : Leads s (t.presentMem r) := by
  unfold State.presentMem
  split <;> exact leads_memPort _ h rfl

theorem strike_leads (u : Upset) (h : Leads s t) : Leads s (t.strike u) := by
  unfold State.strike
  (repeat' split)
  · exact leads_map _ h (Table.wf_put _ _ _)
  · exact leads_groups _ h (Table.wf_put _ _ _)
  · exact h
  · exact leads_conceal _ h (by simp)

theorem handBeat_leads (ref : OwnerRef) (addr : Nat) (data : Beat) (h : Leads s t) :
    Leads s (t.handBeat ref addr data) := by
  unfold State.handBeat
  dsimp only
  (repeat' split)
  · exact leads_memPort _ h rfl
  · exact presentMem_leads _ h
  · exact h

theorem handPart_leads  (lead : Leads s t) :
    Leads s (State.handPart t) := by
  unfold State.handPart
  try extract_lets
  repeat' first
    | (with_reducible first | exact Leads.refl _ | assumption | apply handBeat_leads)

theorem handChannel_leads (c : Fin 8) (lead : Leads s t) :
    Leads s (State.handChannel t c) := by
  unfold State.handChannel
  try extract_lets
  repeat' first
    | (with_reducible first | exact Leads.refl _ | assumption | apply handBeat_leads)

theorem draw_leads (h : Leads s t) : Leads s t.draw := leads_drawn _ h

theorem handRecord_leads (cl : FaultClass) (lead : Leads s t) :
    Leads s (State.handRecord t cl) := by
  unfold State.handRecord
  try extract_lets
  repeat' first
    | (with_reducible first | exact Leads.refl _ | assumption | apply draw_leads | apply handBeat_leads)

theorem handNext_leads (cl : FaultClass) (lead : Leads s t) :
    Leads s (State.handNext t cl) := by
  unfold State.handNext
  try extract_lets
  repeat' first
    | (with_reducible first | exact Leads.refl _ | assumption | apply handBeat_leads)

theorem setControl_leads (f : Control → Control) (h : Leads s t)
    (hc : (f t.control).config = t.control.config)
    (h1 : t.control.contained.sound → (f t.control).contained.sound)
    (h2 : t.control.uncontained.sound → (f t.control).uncontained.sound) : Leads s (t.setControl f) := by
  unfold State.setControl
  dsimp only
  split
  · exact leads_control _ h hc h1 h2
  · exact handPart_leads (leads_control _ h hc h1 h2)

theorem setChannel_leads (c : Fin 8) (f : Channel → Channel) (h : Leads s t) :
    Leads s (t.setChannel c f) := by
  unfold State.setChannel
  dsimp only
  split
  · exact leads_channels _ h
  · exact handChannel_leads _ (leads_channels _ h)

theorem enableWriting_leads (h : Leads s t) : Leads s t.enableWriting := by
  unfold State.enableWriting
  dsimp only
  split
  · exact h
  · exact handNext_leads _ (handNext_leads _ (handRecord_leads _ (handRecord_leads _
      (foldl_leads _ _ (fun _ _ x => handChannel_leads _ x)
        (handPart_leads (leads_control _ h rfl id id))))))

theorem insertKind_ne (k : FaultKind) (l : List FaultKind) : insertKind k l ≠ [] := by
  cases l <;> simp [insertKind]; split <;> (try split) <;> simp

theorem setLog_leads (cl : FaultClass) (l : FaultLog) (hl : l.sound) (h : Leads s t) :
    Leads s { t with control := t.control.setLog cl l } := by
  cases cl
  · exact leads_control _ h rfl (fun _ => hl) id
  · exact leads_control _ h rfl id (fun _ => hl)

theorem logFault_leads (r : FaultRecord) (h : Leads s t) : Leads s (t.logFault r) := by
  unfold State.logFault
  dsimp only
  split
  · exact handRecord_leads _ (setLog_leads _ _ (fun x => nomatch x) h)
  · rename_i f hf
    exact handNext_leads _ (setLog_leads _ _ (fun x => by simp [hf] at x) h)

theorem presentReport_leads (h : Leads s t) : Leads s t.presentReport := by
  unfold State.presentReport
  dsimp only
  (repeat' split)
  · exact h
  · exact leads_control _ (presentMem_leads _ h) rfl id id
  · exact h

theorem overflowReport_leads (r : Report) (h : Leads s t) : Leads s (t.overflowReport r) := by
  unfold State.overflowReport
  dsimp only
  split
  · exact logFault_leads _ (logFault_leads _ (setControl_leads _ h rfl id id))
  · exact logFault_leads _ (setControl_leads _ h rfl id id)

theorem post_leads (r : Report) (h : Leads s t) : Leads s (t.post r) := by
  unfold State.post
  dsimp only
  (repeat' split)
  · exact h
  · exact h
  · exact h
  · exact overflowReport_leads _ h
  · exact presentReport_leads (leads_control _ h rfl id id)

theorem answerHolds_leads (h : Leads s t) : Leads s t.answerHolds := by
  unfold State.answerHolds
  exact leads_holds _ (foldl_leads _ _ (fun _ _ x => turnAway_leads _ x) h) (by simp)

theorem testQuiet_leads (h : Leads s t) : Leads s t.testQuiet := by
  unfold State.testQuiet
  split
  · exact leads_engine _ h id id
  · exact h

theorem quiesce_leads (h : Leads s t) : Leads s t.quiesce := by
  unfold State.quiesce
  split
  · exact h
  · exact testQuiet_leads (leads_engine _ h id id)

theorem endSearches_leads (h : Leads s t) : Leads s t.endSearches := leads_map _ h id

theorem discardReads_leads (h : Leads s t) : Leads s t.discardReads := leads_channels _ h

theorem dropDeadlines_leads (h : Leads s t) : Leads s t.dropDeadlines := by
  refine leads_groups _ h (Table.wf_map _ (fun e => ?_) _)
  dsimp only
  split <;> rfl

theorem haltWork_leads (h : Leads s t) : Leads s t.haltWork :=
  dropDeadlines_leads (discardReads_leads (endSearches_leads (quiesce_leads (answerHolds_leads
    (leads_control _ h rfl id id)))))

theorem enterFaulted_leads (h : Leads s t) : Leads s t.enterFaulted :=
  haltWork_leads (setControl_leads _ h rfl id id)

theorem raise_leads (r : FaultRecord) (lead : Leads s t) :
    Leads s (State.raise t r) := by
  unfold State.raise
  try extract_lets
  repeat' first
    | (with_reducible first | exact Leads.refl _ | assumption | apply logFault_leads | apply post_leads | apply enterFaulted_leads | apply foldl_leads | apply ite_leads)

theorem driveInterrupt_leads (h : Leads s t) : Leads s t.driveInterrupt := leads_pins _ h

theorem startSearch_leads (h : Leads s t) : Leads s t.startSearch := by
  unfold State.startSearch
  split
  · exact leads_map _ h id
  · exact h

theorem quarantine_leads (slot : Nat) (h : Leads s t) : Leads s (t.quarantine slot) := by
  unfold State.quarantine
  dsimp only
  apply startSearch_leads
  split
  · exact putFrame_leads _ _ h
  · exact leads_map _ (putFrame_leads _ _ h) id

theorem touch_leads (slot : Nat) (lead : Leads s t) :
    Leads s (State.touch t slot) := by
  unfold State.touch
  try extract_lets
  repeat' first
    | (with_reducible first | exact Leads.refl _ | assumption | apply quarantine_leads | apply foldl_leads | apply ite_leads)

theorem touchAll_leads (slots : List Nat) (lead : Leads s t) :
    Leads s (State.touchAll t slots) := by
  unfold State.touchAll
  try extract_lets
  repeat' first
    | (with_reducible first | exact Leads.refl _ | assumption | apply touch_leads | apply foldl_leads)

theorem insertRanges_leads (slot : Nat) (news : List SectorRange) (lead : Leads s t) :
    Leads s (State.insertRanges t slot news) := by
  unfold State.insertRanges
  try extract_lets
  repeat' first
    | (with_reducible first | exact Leads.refl _ | assumption | apply touch_leads | apply putFrame_leads | apply foldl_leads | apply ite_leads)

theorem insertPosition_leads (slot : Nat) (position : Nat) (lead : Leads s t) :
    Leads s (State.insertPosition t slot position) := by
  unfold State.insertPosition
  try extract_lets
  repeat' first
    | (with_reducible first | exact Leads.refl _ | assumption | apply insertRanges_leads)

theorem removePosition_leads (slot : Nat) (position : Nat) (lead : Leads s t) :
    Leads s (State.removePosition t slot position).1 := by
  unfold State.removePosition
  try extract_lets
  repeat' first
    | (with_reducible first | exact Leads.refl _ | assumption | apply touch_leads | apply putFrame_leads | apply foldl_leads | apply ite_leads)
    | split

theorem finalState_leads (slot : Nat) (f : FrameEntry → FrameEntry) (lead : Leads s t) :
    Leads s (State.finalState t slot f) := by
  unfold State.finalState
  try extract_lets
  repeat' first
    | (with_reducible first | exact Leads.refl _ | assumption | apply touch_leads | apply putFrame_leads | apply foldl_leads | apply ite_leads)

theorem claimTest_leads (slots : List Nat) (lead : Leads s t) :
    Leads s (State.claimTest t slots).1 := by
  unfold State.claimTest
  try extract_lets
  repeat' first
    | (with_reducible first | exact Leads.refl _ | assumption | apply touchAll_leads)

theorem sourceLookup_leads (channel : Fin 8) (frame : Word32) (acceptable : List Nat) (l : List Nat)
    (h : Leads s t) : Leads s (State.sourceLookup channel frame acceptable t l).1 := by
  induction l generalizing t with
  | nil => exact h
  | cons k ks ih =>
    unfold State.sourceLookup
    dsimp only
    split
    · exact touch_leads _ h
    · exact ih (touch_leads _ h)

theorem dropTails_leads (slots : List Nat) (h : Leads s t) : Leads s (t.dropTails slots) :=
  leads_conceal _ h id

theorem scan_length (targets : List Nat) : ∀ l : List ConcealEntry,
    (Concealment.scan targets l).1.length ≤ l.length
  | [] => Nat.le_refl _
  | e :: es => by
    have := scan_length targets es
    unfold Concealment.scan
    dsimp only
    (repeat' split) <;> simp <;> omega

theorem removeTargets_leads (targets : List Nat) (h : Leads s t) : Leads s (t.removeTargets targets).1 := by
  unfold State.removeTargets
  dsimp only
  have h1 := dropTails_leads targets (leads_conceal
    { t.conceal with table := (Concealment.scan targets t.conceal.table).1 } h
    (fun x => Nat.le_trans (scan_length targets _) x))
  split
  · exact h1
  · exact raise_leads _ h1

theorem withdraw_leads (target : Nat) (h : Leads s t) : Leads s (t.withdraw target) := by
  unfold State.withdraw
  dsimp only
  have h1 := touch_leads target (dropTails_leads [target] (leads_conceal
    { t.conceal with table := t.conceal.table.filter (fun e => e.target != target) } h
    (fun x => Nat.le_trans (List.length_filter_le _ _) x)))
  (repeat' split) <;> apply post_leads <;> first | exact h1 | exact putFrame_leads _ _ h1

theorem pushConcealTests_leads (h : Leads s t) : Leads s t.pushConcealTests := push_leads _ h

theorem endConcealments_leads (slots : List Nat) (lead : Leads s t) :
    Leads s (State.endConcealments t slots) := by
  unfold State.endConcealments
  try extract_lets
  repeat' first
    | (with_reducible first | exact Leads.refl _ | assumption | apply removeTargets_leads | apply withdraw_leads | apply pushConcealTests_leads | apply foldl_leads | apply ite_leads)

theorem staleMark_leads (slot : Nat) (lead : Leads s t) :
    Leads s (State.staleMark t slot) := by
  unfold State.staleMark
  try extract_lets
  repeat' first
    | (with_reducible first | exact Leads.refl _ | assumption | apply putFrame_leads | apply post_leads | apply endConcealments_leads | apply foldl_leads | apply ite_leads)

theorem claim_leads (role : Role) (channel : Fin 8) (groupNumber : Word32) (firstFrame : Word32) (d : Nat) (owner : Nat) (slots : List Nat) (lead : Leads s t) :
    Leads s (State.claim t role channel groupNumber firstFrame d owner slots) := by
  unfold State.claim
  try extract_lets
  repeat' first
    | (with_reducible first | exact Leads.refl _ | assumption | apply putFrame_leads | apply endConcealments_leads | apply foldl_leads | apply ite_leads)
    | split
    | intro _ _ _

theorem findSource_leads (channel : Fin 8) (f : Word32) (acceptable slots l : List Nat) (h : Leads s t) :
    Leads s (State.findSource channel f acceptable slots t l).1 := by
  induction l generalizing t with
  | nil => exact h
  | cons k ks ih =>
    unfold State.findSource
    dsimp only
    split
    · exact sourceLookup_leads _ _ _ _ h
    · exact ih (sourceLookup_leads _ _ _ _ h)

theorem chooseSource_leads (grp : Group) (terms : RestoreTerms) (place : Nat) (lead : Leads s t) :
    Leads s (State.chooseSource t grp terms place).1 := by
  unfold State.chooseSource
  try extract_lets
  repeat' first
    | (with_reducible first | exact Leads.refl _ | assumption | apply findSource_leads | apply foldl_leads | apply ite_leads)
    | split

theorem appendTails_leads (g : Nat) (tails : List PendingTail) (h : Leads s t) :
    Leads s (t.appendTails g tails) := leads_conceal _ h id

theorem decideMember_leads (g : Nat) (grp : Group) (terms : RestoreTerms) (place : Nat) (h : Leads s t) :
    Leads s (State.decideMember g grp terms t place) := by
  unfold State.decideMember
  dsimp only
  split
  · exact h
  · rename_i m hm
    have h1 := touch_leads m.slot h
    split
    · exact h1
    · have h2 := chooseSource_leads grp terms place h1
      split
      · exact h2
      · split
        · rename_i hfit
          refine appendTails_leads _ _ (leads_conceal _ h2 fun x => ?_)
          simp only [List.length_append, List.length_map]
          omega
        · exact raise_leads _ h2

theorem decideGroup_leads (g : Nat) (h : Leads s t) : Leads s (t.decideGroup g) := by
  unfold State.decideGroup
  dsimp only
  (repeat' split)
  · exact h
  · exact h
  · exact foldl_leads _ _ (fun _ _ x => decideMember_leads _ _ _ _ x) (leads_conceal _ h id)

theorem dropWork_leads (g : Nat) (h : Leads s t) : Leads s (t.dropWork g) := leads_conceal _ h id

theorem presentTail_leads (w : TailWork) (p : PendingTail) (h : Leads s t) : Leads s (t.presentTail w p) := by
  unfold State.presentTail
  dsimp only
  split
  · exact presentMem_leads _ (leads_conceal _ h id)
  · exact h

theorem tailAnswered_leads (g serial : Nat) (h : Leads s t) : Leads s (t.tailAnswered g serial) :=
  leads_conceal _ h id

theorem queueJob_leads (g : Nat) (kind : JobKind) (h : Leads s t) : Leads s (t.queueJob g kind) :=
  pushBehind_leads _ (leads_engine _ h id id)

theorem offerPromotion_leads (g : Nat) (h : Leads s t) : Leads s (t.offerPromotion g) :=
  leads_engine _ h id id

theorem dropJob_leads (g : Nat) (h : Leads s t) : Leads s (t.dropJob g) := leads_engine _ h id id

theorem takeJob_leads (h : Leads s t) : Leads s t.takeJob := by
  unfold State.takeJob
  split
  · exact leads_agenda _ h
  · split
    · exact push_leads _ (leads_engine _ h id id)
    · exact h

theorem hold_leads (x : Held) (h : Leads s t) : Leads s (t.hold x) := by
  unfold State.hold
  split
  · rename_i hroom
    have key : ∀ u : State, Leads s u → u.holds = t.holds → Leads s { u with holds := u.holds ++ [x] } :=
      fun u hu e => leads_holds _ hu (fun _ => by rw [e]; simp; omega)
    cases t.accepted x.tag with
    | none =>
      cases x.waitsOn with
      | group g => exact offerPromotion_leads _ (key _ h rfl)
      | slot k => exact key _ h rfl
      | tag k => exact key _ h rfl
    | some a =>
      have h1 := key _ (putAccepted_leads x.tag { a with disposition := .held } h) rfl
      cases x.waitsOn with
      | group g => exact offerPromotion_leads _ h1
      | slot k => exact h1
      | tag k => exact h1
  · exact raise_leads _ (turnAway_leads _ h)

theorem leaveHolds_leads (tag : Nat) (h : Leads s t) : Leads s (t.leaveHolds tag) :=
  leads_holds _ h (fun x => Nat.le_trans (List.length_filter_le _ _) x)

theorem releaseNext_leads (marked : List Nat) (lead : Leads s t) :
    Leads s (State.releaseNext t marked) := by
  unfold State.releaseNext
  try extract_lets
  repeat' first
    | (with_reducible first | exact Leads.refl _ | assumption | apply leaveHolds_leads | apply push_leads | apply classify_leads | apply foldl_leads | apply ite_leads)
    | split

theorem noticePosition_leads (g : Nat) (position : Nat) (lead : Leads s t) :
    Leads s (State.noticePosition t g position) := by
  unfold State.noticePosition
  try extract_lets
  repeat' first
    | (with_reducible first | exact Leads.refl _ | assumption | apply touchAll_leads | apply push_leads | apply foldl_leads | apply ite_leads)
    | split

theorem expireOne_leads (h : Held) (lead : Leads s t) :
    Leads s (State.expireOne t h) := by
  unfold State.expireOne
  try extract_lets
  repeat' first
    | (with_reducible first | exact Leads.refl _ | assumption | apply turnAway_leads | apply post_leads | apply raise_leads)

theorem expireHolds_leads (h : Leads s t) : Leads s t.expireHolds := by
  unfold State.expireHolds
  dsimp only
  split
  · exact h
  · exact push_leads _ (foldl_leads _ _ (fun _ _ x => expireOne_leads _ x)
      (leads_holds _ h (fun x => Nat.le_trans (List.length_filter_le _ _) x)))

theorem presentPass_leads (tag : Nat) (lead : Leads s t) :
    Leads s (State.presentPass t tag) := by
  unfold State.presentPass
  try extract_lets
  repeat' first
    | (with_reducible first | exact Leads.refl _ | assumption | apply putAccepted_leads | apply presentMem_leads | apply foldl_leads | apply ite_leads)
    | split

theorem redirect_leads (tag : Nat) (a : Accepted) (c : Configuration) (slot : Nat) (position : Nat) (lead : Leads s t) :
    Leads s (State.redirect t tag a c slot position) := by
  unfold State.redirect
  try extract_lets
  repeat' first
    | (with_reducible first | exact Leads.refl _ | assumption | apply putAccepted_leads | apply presentMem_leads | apply respond_leads | apply turnAway_leads | apply raise_leads | apply foldl_leads | apply ite_leads)
    | split

theorem routeArena_leads (tag : Nat) (a : Accepted) (c : Configuration) (p : Place) (h : Leads s t) :
    Leads s (t.routeArena tag a c p) := by
  unfold State.routeArena
  have present : ∀ {u : State}, Leads s u → Leads s (u.push [.present tag]) := fun x => push_leads _ x
  cases a.kind with
  | read =>
    dsimp only
    generalize readRoute _ _ _ = route
    cases route with
    | pass => exact present h
    | poison => exact turnAway_leads _ h
    | redirect => exact redirect_leads _ _ _ _ _ h
  | write =>
    refine ite_leads ?_ (ite_leads (present (staleMark_leads _ h)) (present h))
    split
    · exact push_leads _ h
    · exact present h

theorem classifyArena_leads (tag : Nat) (a : Accepted) (c : Configuration) (lead : Leads s t) :
    Leads s (State.classifyArena t tag a c) := by
  unfold State.classifyArena
  try extract_lets
  repeat' first
    | (with_reducible first | exact Leads.refl _ | assumption | apply touch_leads | apply hold_leads | apply quarantine_leads | apply routeArena_leads | apply foldl_leads | apply ite_leads)
    | split

theorem classify_leads (tag : Nat) (lead : Leads s t) :
    Leads s (State.classify t tag) := by
  unfold State.classify
  try extract_lets
  repeat' first
    | (with_reducible first | exact Leads.refl _ | assumption | apply presentPass_leads | apply classifyArena_leads | apply foldl_leads | apply ite_leads)
    | split

theorem takeRequest_leads (r : PortRequest) (h : Leads s t) : Leads s (t.takeRequest r) := by
  unfold State.takeRequest
  exact ite_leads (raise_leads _ (send_leads _ h))
    (push_leads _ (leads_port _ (putAccepted_leads _ _ h) id))

theorem acceptNext_leads (h : Leads s t) : Leads s t.acceptNext := by
  unfold State.acceptNext
  refine ite_leads ?_ h
  split
  · exact takeRequest_leads _ (leads_port _ h id)
  · exact h

theorem presentRequest_leads (r : PortRequest) (h : Leads s t) : Leads s (t.presentRequest r) :=
  push_leads _ (leads_port _ h id)

theorem enterStage_leads (g : Nat) (state : GroupState) (job : JobKind) (lead : Leads s t) :
    Leads s (State.enterStage t g state job) := by
  unfold State.enterStage
  try extract_lets
  repeat' first
    | (with_reducible first | exact Leads.refl _ | assumption | apply putGroup_leads | apply fenceSlots_leads | apply queueJob_leads | apply foldl_leads | apply ite_leads)
    | split

theorem collected_leads (g : Nat) (grp : Group) (lead : Leads s t) :
    Leads s (State.collected t g grp) := by
  unfold State.collected
  try extract_lets
  repeat' first
    | (with_reducible first | exact Leads.refl _ | assumption | apply push_leads | apply retire_leads | apply enterStage_leads | apply foldl_leads | apply ite_leads)

theorem recordArrival_leads (g : Nat) (grp : Group) (a : Arrival) (lead : Leads s t) :
    Leads s (State.recordArrival t g grp a) := by
  unfold State.recordArrival
  try extract_lets
  repeat' first
    | (with_reducible first | exact Leads.refl _ | assumption | apply putGroup_leads | apply collected_leads | apply foldl_leads | apply ite_leads)
    | split

theorem editExtent_leads (a : Arrival) (lead : Leads s t) :
    Leads s (State.editExtent t a) := by
  unfold State.editExtent
  try extract_lets
  repeat' first
    | (with_reducible first | exact Leads.refl _ | assumption | apply insertPosition_leads | apply removePosition_leads | apply foldl_leads | apply ite_leads)

theorem restoreArrival_leads (g : Nat) (grp : Group) (a : Arrival) (lead : Leads s t) :
    Leads s (State.restoreArrival t g grp a) := by
  unfold State.restoreArrival
  try extract_lets
  repeat' first
    | (with_reducible first | exact Leads.refl _ | assumption | apply editExtent_leads | apply putGroup_leads | apply push_leads | apply check_leads | apply foldl_leads | apply ite_leads)
    | split

theorem arrive_leads (g : Nat) (a : Arrival) (lead : Leads s t) :
    Leads s (State.arrive t g a) := by
  unfold State.arrive
  try extract_lets
  repeat' first
    | (with_reducible first | exact Leads.refl _ | assumption | apply recordArrival_leads | apply restoreArrival_leads | apply foldl_leads | apply ite_leads)
    | split

theorem wearMember_leads (g : Nat) (threshold : Nat) (place : Nat) (lead : Leads s t) :
    Leads s (State.wearMember g threshold t place) := by
  unfold State.wearMember
  try extract_lets
  repeat' first
    | (with_reducible first | exact Leads.refl _ | assumption | apply putFrame_leads | apply putGroup_leads | apply post_leads | apply foldl_leads | apply ite_leads)
    | split

theorem wearTest_leads (g : Nat) (members : Nat) (lead : Leads s t) :
    Leads s (State.wearTest t g members) := by
  unfold State.wearTest
  try extract_lets
  repeat' first
    | (with_reducible first | exact Leads.refl _ | assumption | apply wearMember_leads | apply foldl_leads | apply ite_leads)
    | split
    | intro _ _ _

theorem reportReread_leads (grp : Group) (beyond : Positions) (place : Nat) (lead : Leads s t) :
    Leads s (State.reportReread grp beyond t place) := by
  unfold State.reportReread
  try extract_lets
  repeat' first
    | (with_reducible first | exact Leads.refl _ | assumption | apply post_leads | apply foldl_leads | apply ite_leads)
    | split

theorem openRound_leads (g : Nat) (grp : Group) (limit : Nat) (beyond : Positions) (lead : Leads s t) :
    Leads s (State.openRound t g grp limit beyond) := by
  unfold State.openRound
  try extract_lets
  repeat' first
    | (with_reducible first | exact Leads.refl _ | assumption | apply putGroup_leads | apply reportReread_leads | apply foldl_leads | apply ite_leads)
    | split
    | intro _ _ _

theorem sendOn_leads (g : Nat) (grp : Group) (audit : Bool) (lead : Leads s t) :
    Leads s (State.sendOn t g grp audit) := by
  unfold State.sendOn
  try extract_lets
  repeat' first
    | (with_reducible first | exact Leads.refl _ | assumption | apply enterStage_leads | apply push_leads | apply retire_leads | apply foldl_leads | apply ite_leads)

theorem check_leads (g : Nat) (lead : Leads s t) :
    Leads s (State.check t g) := by
  unfold State.check
  try extract_lets
  repeat' first
    | (with_reducible first | exact Leads.refl _ | assumption | apply touchAll_leads | apply putGroup_leads | apply wearTest_leads | apply openRound_leads | apply sendOn_leads | apply foldl_leads | apply ite_leads)
    | split
    | intro _ _ _
    | extract_lets

theorem releaseAndReport_leads (g : Nat) (lead : Leads s t) :
    Leads s (State.releaseAndReport t g) := by
  unfold State.releaseAndReport
  exact pushBehind_leads _ lead

theorem retireRecord_leads (g : Nat) (grp : Group) (lead : Leads s t) :
    Leads s (State.retireRecord t g grp) := by
  unfold State.retireRecord
  try extract_lets
  repeat' first
    | (with_reducible first | exact Leads.refl _ | assumption | apply finalState_leads | apply putGroup_leads | apply releaseAndReport_leads | apply foldl_leads | apply ite_leads)
    | split
    | intro _ _ _

theorem retireRestore_leads (g : Nat) (grp : Group) (lead : Leads s t) :
    Leads s (State.retireRestore t g grp) := by
  unfold State.retireRestore
  try extract_lets
  repeat' first
    | (with_reducible first | exact Leads.refl _ | assumption | apply finalState_leads | apply dropWork_leads | apply putGroup_leads | apply releaseAndReport_leads | apply foldl_leads | apply ite_leads)
    | split
    | intro _ _ _

theorem retire_leads (g : Nat) (lead : Leads s t) :
    Leads s (State.retire t g) := by
  unfold State.retire
  try extract_lets
  repeat' first
    | (with_reducible first | exact Leads.refl _ | assumption | apply retireRecord_leads | apply retireRestore_leads | apply foldl_leads | apply ite_leads)
    | split

theorem statusWrite_leads (g : Nat) (lead : Leads s t) :
    Leads s (State.statusWrite t g) := by
  unfold State.statusWrite
  try extract_lets
  repeat' first
    | (with_reducible first | exact Leads.refl _ | assumption | apply presentMem_leads | apply foldl_leads | apply ite_leads)
    | split

theorem enterConcealing_leads (g : Nat) (lead : Leads s t) :
    Leads s (State.enterConcealing t g) := by
  unfold State.enterConcealing
  try extract_lets
  repeat' first
    | (with_reducible first | exact Leads.refl _ | assumption | apply putGroup_leads | apply fenceSlots_leads | apply decideGroup_leads | apply push_leads | apply foldl_leads | apply ite_leads)
    | split

theorem testConcealed_leads (g : Nat) (lead : Leads s t) :
    Leads s (State.testConcealed t g) := by
  unfold State.testConcealed
  try extract_lets
  repeat' first
    | (with_reducible first | exact Leads.refl _ | assumption | apply push_leads | apply retire_leads | apply foldl_leads | apply ite_leads)
    | split

theorem abandonMembers_leads (g : Nat) (grp : Group) (lead : Leads s t) :
    Leads s (State.abandonMembers t g grp) := by
  unfold State.abandonMembers
  try extract_lets
  repeat' first
    | (with_reducible first | exact Leads.refl _ | assumption | apply removeTargets_leads | apply dropWork_leads | apply finalState_leads | apply foldl_leads | apply ite_leads)
    | split
    | intro _ _ _

theorem completeAbandon_leads (g : Nat) (lead : Leads s t) :
    Leads s (State.completeAbandon t g) := by
  unfold State.completeAbandon
  try extract_lets
  repeat' first
    | (with_reducible first | exact Leads.refl _ | assumption | apply abandonMembers_leads | apply putGroup_leads | apply releaseAndReport_leads | apply foldl_leads | apply ite_leads)
    | split

theorem endService_leads (h : Leads s t) : Leads s t.endService := leads_engine _ h id id

theorem testEnding_leads (h : Leads s t) : Leads s t.testEnding := by
  unfold State.testEnding
  (repeat' split)
  · exact push_leads _ (endService_leads h)
  · exact h
  · exact h

theorem abandonGroup_leads (g : Nat) (h : Leads s t) : Leads s (t.abandonGroup g) := by
  unfold State.abandonGroup
  dsimp only
  (repeat' split)
  · exact h
  · exact testEnding_leads (leads_engine _ (fenceSlots_leads _ (putGroup_leads _ _ h)) id id)
  · exact push_leads _ (dropJob_leads _ h)
  · exact h
  · exact h

theorem abandonAll_leads (h : Leads s t) : Leads s t.abandonAll := by
  unfold State.abandonAll
  refine leads_groups _ (foldl_leads _ _ (fun u g x => ?_) h) (fun _ => rfl)
  split
  · exact abandonMembers_leads _ _ x
  · exact x

theorem postChannel_leads (c : Fin 8) (lead : Leads s t) :
    Leads s (State.postChannel t c) := by
  unfold State.postChannel
  try extract_lets
  repeat' first
    | (with_reducible first | exact Leads.refl _ | assumption | apply post_leads)

theorem tryFetch_leads (c : Fin 8) (lead : Leads s t) :
    Leads s (State.tryFetch t c) := by
  unfold State.tryFetch
  try extract_lets
  repeat' first
    | (with_reducible first | exact Leads.refl _ | assumption | apply setChannel_leads | apply presentMem_leads | apply foldl_leads | apply ite_leads)
    | split

theorem readChannelWord_leads (c : Fin 8) (atResume : Bool) (lead : Leads s t) :
    Leads s (State.readChannelWord t c atResume) := by
  unfold State.readChannelWord
  try extract_lets
  repeat' first
    | (with_reducible first | exact Leads.refl _ | assumption | apply setChannel_leads | apply presentMem_leads)

theorem disableTest_leads (c : Fin 8) (lead : Leads s t) :
    Leads s (State.disableTest t c) := by
  unfold State.disableTest
  try extract_lets
  repeat' first
    | (with_reducible first | exact Leads.refl _ | assumption | apply setChannel_leads | apply postChannel_leads | apply foldl_leads | apply ite_leads)

theorem disableChannels_leads  (lead : Leads s t) :
    Leads s (State.disableChannels t) := by
  unfold State.disableChannels
  try extract_lets
  repeat' first
    | (with_reducible first | exact Leads.refl _ | assumption | apply setChannel_leads | apply foldl_leads | apply ite_leads)
    | split
    | intro _ _ _

theorem startChannel_leads (c : Fin 8) (lead : Leads s t) :
    Leads s (State.startChannel t c) := by
  unfold State.startChannel
  try extract_lets
  repeat' first
    | (with_reducible first | exact Leads.refl _ | assumption | apply readChannelWord_leads | apply setChannel_leads)

theorem endChannel_leads (c : Fin 8) (st : ChannelState) (lead : Leads s t) :
    Leads s (State.endChannel t c st) := by
  unfold State.endChannel
  try extract_lets
  repeat' first
    | (with_reducible first | exact Leads.refl _ | assumption | apply setChannel_leads)

theorem stopChannel_leads (c : Fin 8) (lead : Leads s t) :
    Leads s (State.stopChannel t c) := by
  unfold State.stopChannel
  try extract_lets
  repeat' first
    | (with_reducible first | exact Leads.refl _ | assumption | apply endChannel_leads | apply push_leads)

theorem abortChannel_leads (c : Fin 8) (lead : Leads s t) :
    Leads s (State.abortChannel t c) := by
  unfold State.abortChannel
  try extract_lets
  repeat' first
    | (with_reducible first | exact Leads.refl _ | assumption | apply endChannel_leads | apply push_leads | apply disableTest_leads | apply foldl_leads | apply ite_leads)

theorem runCommand_leads (c : Fin 8) (x : ChannelCommand) (lead : Leads s t) :
    Leads s (State.runCommand t c x) := by
  unfold State.runCommand
  try extract_lets
  repeat' first
    | (with_reducible first | exact Leads.refl _ | assumption | apply startChannel_leads | apply stopChannel_leads | apply abortChannel_leads | apply readChannelWord_leads | apply foldl_leads | apply ite_leads)
    | split

theorem commandResult_leads (c : Fin 8) (r : CommandResult) (lead : Leads s t) :
    Leads s (State.commandResult t c r) := by
  unfold State.commandResult
  try extract_lets
  repeat' first
    | (with_reducible first | exact Leads.refl _ | assumption | apply setChannel_leads)

theorem takeCommand_leads (c : Fin 8) (cmd : Option ChannelCommand) (lead : Leads s t) :
    Leads s (State.takeCommand t c cmd) := by
  unfold State.takeCommand
  try extract_lets
  repeat' first
    | (with_reducible first | exact Leads.refl _ | assumption | apply commandResult_leads | apply runCommand_leads | apply foldl_leads | apply ite_leads)
    | split

theorem dropRead_leads (c : Fin 8) (lead : Leads s t) :
    Leads s (State.dropRead t c) := by
  unfold State.dropRead
  try extract_lets
  repeat' first
    | (with_reducible first | exact Leads.refl _ | assumption | apply setChannel_leads | apply push_leads)

theorem stopOnError_leads (c : Fin 8) (code : ErrorCode) (groupNumber : Option Word32) (slot : Option Nat) (lead : Leads s t) :
    Leads s (State.stopOnError t c code groupNumber slot) := by
  unfold State.stopOnError
  try extract_lets
  repeat' first
    | (with_reducible first | exact Leads.refl _ | assumption | apply setChannel_leads | apply postChannel_leads | apply raise_leads)

theorem goOn_leads (c : Fin 8) (next : Option Nat) (lead : Leads s t) :
    Leads s (State.goOn t c next) := by
  unfold State.goOn
  try extract_lets
  repeat' first
    | (with_reducible first | exact Leads.refl _ | assumption | apply setChannel_leads | apply postChannel_leads | apply tryFetch_leads | apply foldl_leads | apply ite_leads)
    | split

theorem channelWordAnswer_leads (c : Fin 8) (status : MemStatus) (beats : List Beat) (lead : Leads s t) :
    Leads s (State.channelWordAnswer t c status beats) := by
  unfold State.channelWordAnswer
  try extract_lets
  repeat' first
    | (with_reducible first | exact Leads.refl _ | assumption | apply dropRead_leads | apply setChannel_leads | apply goOn_leads | apply stopOnError_leads | apply foldl_leads | apply ite_leads)
    | split

theorem rejectPlan_leads (c : Fin 8) (addr : Nat) (code : ErrorCode) (groupNumber : Option Word32) (slot : Option Nat) (lead : Leads s t) :
    Leads s (State.rejectPlan t c addr code groupNumber slot) := by
  unfold State.rejectPlan
  try extract_lets
  repeat' first
    | (with_reducible first | exact Leads.refl _ | assumption | apply presentMem_leads | apply stopOnError_leads)

theorem planFlags_leads (c : Fin 8) (p : PlanBlock) (lead : Leads s t) :
    Leads s (State.planFlags t c p) := by
  unfold State.planFlags
  try extract_lets
  repeat' first
    | (with_reducible first | exact Leads.refl _ | assumption | apply post_leads | apply setChannel_leads | apply goOn_leads | apply foldl_leads | apply ite_leads)

theorem loadPlan_leads (c : Fin 8) (role : Role) (addr : Nat) (p : PlanBlock) (g : Nat) (h : Leads s t) :
    Leads s (t.loadPlan c role addr p g) := by
  unfold State.loadPlan
  exact planFlags_leads _ _ (setChannel_leads _ _
    (leads_groups _ (putGroup_leads _ _ (claim_leads _ _ _ _ _ _ _ h)) id))

theorem rejectedAnswer_leads (c : Fin 8) (addr : Nat) (era : Nat) (status : MemStatus) (lead : Leads s t) :
    Leads s (State.rejectedAnswer t c addr era status) := by
  unfold State.rejectedAnswer
  try extract_lets
  repeat' first
    | (with_reducible first | exact Leads.refl _ | assumption | apply raise_leads | apply foldl_leads | apply ite_leads)

theorem groupFreed_leads (c : Fin 8) (lead : Leads s t) :
    Leads s (State.groupFreed t c) := by
  unfold State.groupFreed
  try extract_lets
  repeat' first
    | (with_reducible first | exact Leads.refl _ | assumption | apply setChannel_leads | apply tryFetch_leads | apply push_leads | apply disableTest_leads | apply foldl_leads | apply ite_leads)
    | split

theorem statusAnswer_leads (g : Nat) (serial : Nat) (status : MemStatus) (lead : Leads s t) :
    Leads s (State.statusAnswer t g serial status) := by
  unfold State.statusAnswer
  try extract_lets
  repeat' first
    | (with_reducible first | exact Leads.refl _ | assumption | apply post_leads | apply raise_leads | apply dropGroup_leads | apply groupFreed_leads | apply foldl_leads | apply ite_leads)
    | split

theorem setContext_leads (f : PositionContext → PositionContext) (h : Leads s t) :
    Leads s (t.setContext f) := leads_engine _ h id id

theorem markDamage_leads (g : Nat) (place : Nat) (lead : Leads s t) :
    Leads s (State.markDamage t g place) := by
  unfold State.markDamage
  try extract_lets
  repeat' first
    | (with_reducible first | exact Leads.refl _ | assumption | apply modGroup_leads)

theorem damageMember_leads (g : Nat) (place : Nat) (slot : Nat) (position : Nat) (lead : Leads s t) :
    Leads s (State.damageMember t g place slot position) := by
  unfold State.damageMember
  try extract_lets
  repeat' first
    | (with_reducible first | exact Leads.refl _ | assumption | apply insertPosition_leads | apply markDamage_leads)

theorem rebuiltMember_leads (g : Nat) (slot : Nat) (position : Nat) (lead : Leads s t) :
    Leads s (State.rebuiltMember t g slot position) := by
  unfold State.rebuiltMember
  try extract_lets
  repeat' first
    | (with_reducible first | exact Leads.refl _ | assumption | apply removePosition_leads | apply modGroup_leads | apply foldl_leads | apply ite_leads)

theorem beyondPosition_leads (g : Nat) (position : Nat) (lead : Leads s t) :
    Leads s (State.beyondPosition t g position) := by
  unfold State.beyondPosition
  try extract_lets
  repeat' first
    | (with_reducible first | exact Leads.refl _ | assumption | apply modGroup_leads)

theorem failParity_leads (g position : Nat) (failed : Positions) (h : Leads s t) :
    Leads s (t.failParity g position failed) := modGroup_leads _ _ h

theorem finishPosition_leads (g : Nat) (kind : JobKind) (position : Nat) (h : Leads s t) :
    Leads s (t.finishPosition g kind position) := by
  unfold State.finishPosition
  dsimp only
  split
  · exact push_leads _ (failParity_leads _ _ _ (setContext_leads _ h))
  · exact push_leads _ (setContext_leads _ h)
  · exact noticePosition_leads _ _ (push_leads _ (setContext_leads _ h))

theorem testFinished_leads (g : Nat) (kind : JobKind) (position : Nat) (lead : Leads s t) :
    Leads s (State.testFinished t g kind position) := by
  unfold State.testFinished
  try extract_lets
  repeat' first
    | (with_reducible first | exact Leads.refl _ | assumption | apply finishPosition_leads | apply foldl_leads | apply ite_leads)

theorem readMembers_leads (damaged : Positions) (chosen : Positions) (lead : Leads s t) :
    Leads s (State.readMembers t damaged chosen) := by
  unfold State.readMembers
  try extract_lets
  repeat' first
    | (with_reducible first | exact Leads.refl _ | assumption | apply setContext_leads)

theorem takeUpPosition_leads (g : Nat) (grp : Group) (kind : JobKind) (position : Nat) (lead : Leads s t) :
    Leads s (State.takeUpPosition t g grp kind position) := by
  unfold State.takeUpPosition
  try extract_lets
  repeat' first
    | (with_reducible first | exact Leads.refl _ | assumption | apply readMembers_leads | apply touchAll_leads | apply finishPosition_leads | apply beyondPosition_leads | apply foldl_leads | apply ite_leads)
    | split

theorem takeUp_leads  (lead : Leads s t) :
    Leads s (State.takeUp t) := by
  unfold State.takeUp
  try extract_lets
  repeat' first
    | (with_reducible first | exact Leads.refl _ | assumption | apply takeUpPosition_leads | apply foldl_leads | apply ite_leads)
    | split

theorem endJob_leads (g : Nat) (grp : Group) (kind : JobKind) (h : Leads s t) :
    Leads s (t.endJob g grp kind) := by
  unfold State.endJob
  have h1 := touchAll_leads grp.slots h
  split
  · exact push_leads _ (endService_leads h)
  · exact ite_leads (push_leads _ (leads_engine _ (putGroup_leads _ _ h1) id id))
      (push_leads _ (endService_leads h1))
  · exact ite_leads (push_leads _ (endService_leads h1)) (push_leads _ (endService_leads h1))

theorem advance_leads (h : Leads s t) : Leads s t.advance := by
  unfold State.advance
  split
  · refine ite_leads (push_leads _ (leads_engine _ h id id)) ?_
    split
    · exact endJob_leads _ _ _ h
    · exact h
  · exact h

theorem issueEngine_leads (c : Configuration) (grp : Group) (slot position : Nat) (d : DueRequest)
    (rest : List DueRequest) (hroom : t.mayIssue slot = true) (h : Leads s t) :
    Leads s (t.issueEngine c grp slot position d rest) := by
  unfold State.issueEngine
  dsimp only
  refine foldl_leads _ _ (fun _ _ x => presentMem_leads _ x) (leads_engine _ h (fun _ => ?_) (fun x => ?_))
  · simp [State.mayIssue] at hroom
    simp; omega
  · exact Nat.le_trans (Nat.sub_le _ _) x

theorem issueNext_leads (h : Leads s t) : Leads s t.issueNext := by
  unfold State.issueNext
  (repeat' split) <;> first | exact h | (rename_i hm; exact issueEngine_leads _ _ _ _ _ _ hm h)

theorem issueSeveral_leads (k : Nat) (h : Leads s t) : Leads s (t.issueSeveral k) := by
  induction k generalizing t with
  | zero => exact h
  | succ k ih => exact ih (issueNext_leads h)

theorem refill_leads (h : Leads s t) : Leads s t.refill := by
  unfold State.refill
  dsimp only
  split
  · rename_i tm c _ hc
    split
    · have h1 : Leads s { t with engine := { t.engine with
          tokens := min c.tokenCeiling (t.engine.tokens + c.refillAmount),
          nextRefill := some (tm + c.refillPeriod) } } :=
        leads_engine _ h id (fun _ => by
          simp only [State.tokenCeiling, hc, Option.map_some, Option.getD_some]
          exact Nat.min_le_left _ _)
      split
      · exact issueSeveral_leads _ h1
      · exact h1
    · exact h
  · exact h

theorem writeMembers_leads (writes : List DueRequest) (lead : Leads s t) :
    Leads s (State.writeMembers t writes) := by
  unfold State.writeMembers
  try extract_lets
  repeat' first
    | (with_reducible first | exact Leads.refl _ | assumption | apply setContext_leads)

theorem sealReads_leads (g : Nat) (grp : Group) (position : Nat) (lead : Leads s t) :
    Leads s (State.sealReads t g grp position) := by
  unfold State.sealReads
  try extract_lets
  repeat' first
    | (with_reducible first | exact Leads.refl _ | assumption | apply setContext_leads | apply finishPosition_leads | apply writeMembers_leads | apply testFinished_leads | apply foldl_leads | apply ite_leads)

theorem auditReads_leads (g : Nat) (grp : Group) (position : Nat) (lead : Leads s t) :
    Leads s (State.auditReads t g grp position) := by
  unfold State.auditReads
  try extract_lets
  repeat' first
    | (with_reducible first | exact Leads.refl _ | assumption | apply beyondPosition_leads | apply damageMember_leads | apply modGroup_leads | apply finishPosition_leads | apply foldl_leads | apply ite_leads)
    | split

theorem rebuildWrites_leads (grp : Group) (damaged : Positions) (lead : Leads s t) :
    Leads s (State.rebuildWrites t grp damaged) := by
  unfold State.rebuildWrites
  try extract_lets
  repeat' first
    | (with_reducible first | exact Leads.refl _ | assumption | apply writeMembers_leads)

theorem rebuildReads_leads (g : Nat) (grp : Group) (position : Nat) (lead : Leads s t) :
    Leads s (State.rebuildReads t g grp position) := by
  unfold State.rebuildReads
  try extract_lets
  repeat' first
    | (with_reducible first | exact Leads.refl _ | assumption | apply touchAll_leads | apply rebuildWrites_leads | apply beyondPosition_leads | apply finishPosition_leads | apply setContext_leads | apply foldl_leads | apply ite_leads)

theorem goOnPosition_leads (g : Nat) (grp : Group) (kind : JobKind) (position : Nat) (lead : Leads s t) :
    Leads s (State.goOnPosition t g grp kind position) := by
  unfold State.goOnPosition
  try extract_lets
  repeat' first
    | (with_reducible first | exact Leads.refl _ | assumption | apply finishPosition_leads | apply sealReads_leads | apply auditReads_leads | apply rebuildReads_leads | apply foldl_leads | apply ite_leads)
    | split

theorem engineEffect_leads (g : Nat) (grp : Group) (kind : JobKind) (position : Nat) (m : Member) (r : EngineRequest) (lead : Leads s t) :
    Leads s (State.engineEffect t g grp kind position m r) := by
  unfold State.engineEffect
  try extract_lets
  repeat' first
    | (with_reducible first | exact Leads.refl _ | assumption | apply raise_leads | apply damageMember_leads | apply rebuiltMember_leads | apply foldl_leads | apply ite_leads)
    | split

theorem engineDone_leads (r : EngineRequest) (lead : Leads s t) :
    Leads s (State.engineDone t r) := by
  unfold State.engineDone
  try extract_lets
  repeat' first
    | (with_reducible first | exact Leads.refl _ | assumption | apply engineEffect_leads | apply setContext_leads | apply goOnPosition_leads | apply testEnding_leads | apply testQuiet_leads | apply foldl_leads | apply ite_leads)
    | split
    | intro _ _ _
    | extract_lets

theorem engineBurst_leads (id burst bursts : Nat) (status : MemStatus) (beats : List Beat) (h : Leads s t) :
    Leads s (t.engineBurst id burst bursts status beats) := by
  unfold State.engineBurst
  dsimp only
  (repeat' split)
  · exact h
  · exact engineDone_leads _ (leads_engine _ h (fun x => Nat.le_trans (List.length_filter_le _ _) x) (fun x => x))
  · exact leads_engine _ h (by simp) (fun x => x)

theorem giveUp_leads (slot : Nat) (lead : Leads s t) :
    Leads s (State.giveUp t slot) := by
  unfold State.giveUp
  try extract_lets
  repeat' first
    | (with_reducible first | exact Leads.refl _ | assumption | apply putFrame_leads | apply post_leads | apply raise_leads)

theorem rebuildEntry_leads (slot : Nat) (g : Nat) (lead : Leads s t) :
    Leads s (State.rebuildEntry t slot g) := by
  unfold State.rebuildEntry
  try extract_lets
  repeat' first
    | (with_reducible first | exact Leads.refl _ | assumption | apply putFrame_leads | apply modGroup_leads | apply raise_leads | apply foldl_leads | apply ite_leads)
    | split

theorem settleEntry_leads (slot : Nat) (x : List Nat) (lead : Leads s t) :
    Leads s (State.settleEntry t slot x) := by
  unfold State.settleEntry
  try extract_lets
  repeat' first
    | (with_reducible first | exact Leads.refl _ | assumption | apply giveUp_leads | apply rebuildEntry_leads | apply foldl_leads | apply ite_leads)
    | split

theorem closeSearch_leads (slot : Nat) (h : Leads s t) : Leads s (t.closeSearch slot) :=
  startSearch_leads (leads_map _ h id)

theorem endSearch_leads (q : Search) (h : Leads s t) : Leads s (t.endSearch q) := by
  unfold State.endSearch
  have h1 := closeSearch_leads q.slot (endConcealments_leads [q.slot] (settleEntry_leads q.slot (t.countNoted q)
    (push_leads [.releasePass (t.heldTags (Held.waitsOnSlot q.slot))] h)))
  exact ite_leads (raise_leads _ h1) h1

theorem searchStep_leads (h : Leads s t) : Leads s t.searchStep := by
  unfold State.searchStep
  split
  · split
    · exact endSearch_leads _ h
    · exact ite_leads (ite_leads (endSearch_leads _ h) (leads_map _ h id)) (raise_leads _ h)
  · exact h

theorem loadResult_leads (r : LoadResult) (h : Leads s t) : Leads s (t.loadResult r) :=
  setControl_leads _ h rfl id id

theorem loadTrigger_leads (h : Leads s t) : Leads s t.loadTrigger := by
  unfold State.loadTrigger
  exact ite_leads (loadResult_leads _ (enableWriting_leads h))
    (presentMem_leads _ (leads_control _ (enableWriting_leads h) rfl id id))

/-- A control update that may change the configuration, when the token counter fits the new one. -/
theorem setControl_leads_config (f : Control → Control) (h : Leads s t)
    (hc : t.engine.tokens ≤ ((f t.control).config.map Configuration.tokenCeiling).getD 0)
    (h1 : t.control.contained.sound → (f t.control).contained.sound)
    (h2 : t.control.uncontained.sound → (f t.control).uncontained.sound) : Leads s (t.setControl f) := by
  have h3 : Leads s { t with control := f t.control } :=
    ⟨h.pending, h.upsets, fun x =>
      { h.kept x with
        tokens := hc, contained := h1 (h.kept x).contained, uncontained := h2 (h.kept x).uncontained }⟩
  unfold State.setControl
  dsimp only
  split
  · exact h3
  · exact handPart_leads h3

theorem takeConfiguration_leads (c : Configuration) (h : Leads s t) : Leads s (t.takeConfiguration c) := by
  unfold State.takeConfiguration
  refine push_leads _ ?_
  generalize hf : (fun k : Control => { k.clearIndices.dropPosts with
    config := some c, part := .configured, loadResult := .ok }) = f
  generalize hu : ({ t with
    map := FrameMap.empty, conceal := { table := [], work := [] }
    engine := { t.engine with tokens := c.tokenCeiling, nextRefill := some (t.time + c.refillPeriod) }
    memPort := { t.memPort with lastServed := .engine } } : State) = u
  have hk : t.Kept → State.Kept { u with control := f u.control } := fun k => by
    subst hf hu
    exact { k with
      frames := rfl, conceal := Nat.zero_le _, tokens := Nat.le_refl _
      contained := k.contained, uncontained := k.uncontained }
  have h3 : Leads s { u with control := f u.control } :=
    ⟨by subst hu; exact h.pending, by subst hu; exact h.upsets, fun x => hk (h.kept x)⟩
  unfold State.setControl
  dsimp only
  split
  · exact h3
  · exact handPart_leads h3

theorem headerAnswer_leads (status : MemStatus) (beats : List Beat) (h : Leads s t) :
    Leads s (t.headerAnswer status beats) := by
  unfold State.headerAnswer
  split
  · exact h
  · extract_lets src u
    have h1 : Leads s u := leads_control _ h rfl (fun x => x) (fun x => x)
    clear_value u
    refine ite_leads h1 (ite_leads (loadResult_leads _ h1) (ite_leads (loadResult_leads _ h1)
      (ite_leads (loadResult_leads _ h1) ?_)))
    split
    · exact takeConfiguration_leads _ h1
    · exact loadResult_leads _ h1

theorem emptyEngine_leads (h : Leads s t) : Leads s t.emptyEngine :=
  leads_engine _ (endService_leads h) (fun _ => Nat.zero_le _) (fun x => x)

theorem finishClear_leads (h : Leads s t) : Leads s t.finishClear := by
  unfold State.finishClear
  exact setControl_leads _ (leads_engine _ (leads_conceal { table := [], work := [] } (leads_map FrameMap.empty
    (disableChannels_leads (emptyEngine_leads (abandonAll_leads h))) (fun _ => rfl))
    (fun _ => Nat.zero_le Config.concealCapacity)) (fun x => x) (fun _ => Nat.le_refl _))
    rfl (fun x => x) (fun x => x)

theorem beginClear_leads (h : Leads s t) : Leads s t.beginClear := by
  unfold State.beginClear
  dsimp only
  have h1 := haltWork_leads (setControl_leads (fun c => { c.dropPosts with
    part := .clearing, clearNoted := false, loadPending := c.loadPending.map (fun _ => true) }) h
    rfl (fun x => x) (fun x => x))
  split
  · exact finishClear_leads h1
  · exact h1

theorem clearTrigger_leads (h : Leads s t) : Leads s t.clearTrigger := by
  unfold State.clearTrigger
  dsimp only
  have h1 := enableWriting_leads h
  (repeat' split) <;> first | exact h1 | exact beginClear_leads h1 | exact leads_control _ h1 rfl (fun x => x) (fun x => x)

theorem clearAbandon_leads  (lead : Leads s t) :
    Leads s (State.clearAbandon t) := by
  unfold State.clearAbandon
  try extract_lets
  repeat' first
    | (with_reducible first | exact Leads.refl _ | assumption | apply finishClear_leads | apply foldl_leads | apply ite_leads)

theorem finishEntry_leads (h : Leads s t) : Leads s t.finishEntry := by
  unfold State.finishEntry
  dsimp only
  have h1 := leads_control { t.abandonAll.emptyEngine.disableChannels.control with entering := false }
    (disableChannels_leads (emptyEngine_leads (abandonAll_leads h))) rfl (fun x => x) (fun x => x)
  split
  · exact beginClear_leads h1
  · exact h1

theorem faultAbandon_leads  (lead : Leads s t) :
    Leads s (State.faultAbandon t) := by
  unfold State.faultAbandon
  try extract_lets
  repeat' first
    | (with_reducible first | exact Leads.refl _ | assumption | apply finishEntry_leads | apply foldl_leads | apply ite_leads)

theorem reportAnswer_leads (ringEra : Nat) (status : MemStatus) (h : Leads s t) :
    Leads s (t.reportAnswer ringEra status) := by
  unfold State.reportAnswer
  dsimp only
  split
  · split
    · rename_i r rest c _ _
      have h1 := leads_control { t.control with posts := rest, reportOut := false } h rfl (fun x => x) (fun x => x)
      apply presentReport_leads
      split
      · exact setControl_leads _ h1 rfl (fun x => x) (fun x => x)
      · exact raise_leads _ h1
    · exact h
  · exact h

theorem takenTrigger_leads (v : Word32) (h : Leads s t) : Leads s (t.takenTrigger v) := by
  unfold State.takenTrigger
  (repeat' split) <;> first | exact h | exact setControl_leads _ h rfl (fun x => x) (fun x => x)

theorem classClear_leads (cl : FaultClass) (h : Leads s t) : Leads s (t.classClear cl) :=
  handNext_leads _ (handRecord_leads _ (setLog_leads _ _ (fun _ => rfl) h))

theorem takeTrigger_leads (tr : Trigger) (lead : Leads s t) :
    Leads s (State.takeTrigger t tr) := by
  unfold State.takeTrigger
  try extract_lets
  repeat' first
    | (with_reducible first | exact Leads.refl _ | assumption | apply loadTrigger_leads | apply clearTrigger_leads | apply takeCommand_leads | apply takenTrigger_leads | apply classClear_leads | apply foldl_leads | apply ite_leads)
    | split

theorem noticeIssue_leads (r : MemRequest) (lead : Leads s t) :
    Leads s (State.noticeIssue t r) := by
  unfold State.noticeIssue
  try extract_lets
  repeat' first
    | (with_reducible first | exact Leads.refl _ | assumption | apply putAccepted_leads | apply foldl_leads | apply ite_leads)
    | split

theorem put_below (n k : Nat) (hk : k < n) (a : α) : ∀ t : Table α, (∀ e ∈ t, e.1 < n) →
    ∀ e ∈ Table.put k a t, e.1 < n := by
  intro t ht e he
  have := (Table.mem_keys_put k a t e.1).1 (List.mem_map.2 ⟨e, he, rfl⟩)
  rcases this with h | h
  · omega
  · obtain ⟨e', h1, h2⟩ := List.mem_map.1 h
    exact h2 ▸ ht e' h1

theorem issueHead_leads (c : RequestClass) (tag : Nat) (ht : tag < Config.tagCount) (h : Leads s t) :
    Leads s (t.issueHead c tag) := by
  unfold State.issueHead
  dsimp only
  split
  · exact h
  · apply noticeIssue_leads
    refine leads_tags _ h fun x => ?_
    have e : ∀ l, (t.memPort.setList c l).tags = t.memPort.tags := by intro l; cases c <;> rfl
    dsimp only
    rw [e]
    exact ⟨Table.wf_put _ _ _ x.1, put_below _ _ ht _ _ x.2⟩

theorem issueOne_leads (h : Leads s t) : Leads s t.issueOne := by
  unfold State.issueOne
  split
  · rename_i tag c ht hc
    exact issueHead_leads _ _ (Table.lowestFree_spec _ _ _ ht).1 h
  · exact h

theorem freeTag_leads (tag : Fin 32) (h : Leads s t) : Leads s (t.freeTag tag) :=
  leads_tags _ h fun x => ⟨Table.wf_remove _ _ x.1, fun e he => x.2 e (List.mem_filter.1 he).1⟩

theorem passAnswered_leads (tr : Nat) (status : MemStatus) (beats : List Beat) (lead : Leads s t) :
    Leads s (State.passAnswered t tr status beats) := by
  unfold State.passAnswered
  try extract_lets
  repeat' first
    | (with_reducible first | exact Leads.refl _ | assumption | apply respond_leads | apply push_leads | apply turnAway_leads | apply foldl_leads | apply ite_leads)
    | split

theorem sourceAnswered_leads (tr : Nat) (status : MemStatus) (beats : List Beat) (lead : Leads s t) :
    Leads s (State.sourceAnswered t tr status beats) := by
  unfold State.sourceAnswered
  try extract_lets
  repeat' first
    | (with_reducible first | exact Leads.refl _ | assumption | apply respond_leads | apply turnAway_leads | apply foldl_leads | apply ite_leads)
    | split

theorem concealedTailAnswered_leads (g : Nat) (serial : Nat) (c : Fin 8) (groupNumber : Word32) (slot : Nat) (position : Nat) (era : Nat) (status : MemStatus) (lead : Leads s t) :
    Leads s (State.concealedTailAnswered t g serial c groupNumber slot position era status) := by
  unfold State.concealedTailAnswered
  try extract_lets
  repeat' first
    | (with_reducible first | exact Leads.refl _ | assumption | apply tailAnswered_leads | apply raise_leads | apply push_leads | apply foldl_leads | apply ite_leads)

theorem perform_leads (x : Task) (lead : Leads s t) :
    Leads s (State.perform t x) := by
  unfold State.perform
  try extract_lets
  repeat' first
    | (with_reducible first | exact Leads.refl _ | assumption | apply acceptNext_leads | apply classify_leads | apply presentPass_leads | apply arrive_leads | apply releaseNext_leads | apply check_leads | apply retire_leads | apply statusWrite_leads | apply takeJob_leads | apply takeUp_leads | apply advance_leads | apply enterConcealing_leads | apply testConcealed_leads | apply abandonGroup_leads | apply completeAbandon_leads | apply disableTest_leads | apply takeTrigger_leads | apply foldl_leads | apply ite_leads)
    | split

theorem run_leads (k : Nat) (h : Leads s t) : Leads s (t.run k) := by
  induction k generalizing t with
  | zero => exact h
  | succ k ih =>
    unfold State.run
    split
    · exact h
    · exact ih (perform_leads _ (leads_agenda _ h))

theorem arrangeService_leads (kept : Nat) (h : Leads s t) : Leads s (t.arrangeService kept) := by
  unfold State.arrangeService
  exact ⟨h.pending, h.upsets, fun x => { h.kept x with tags := (h.kept x).tags }⟩

theorem settle_leads (before : State) (h : Leads s t) : Leads s (before.settle t) :=
  driveInterrupt_leads (leads_agenda _ (arrangeService_leads _ (run_leads _ h)))

theorem insertRuns_leads (slot : Nat) (positions : Positions) (lead : Leads s t) :
    Leads s (State.insertRuns t slot positions) := by
  unfold State.insertRuns
  try extract_lets
  repeat' first
    | (with_reducible first | exact Leads.refl _ | assumption | apply insertRanges_leads | apply foldl_leads | apply ite_leads)
    | split

theorem gatherExpired_leads (g : Nat) (lead : Leads s t) :
    Leads s (State.gatherExpired t g) := by
  unfold State.gatherExpired
  try extract_lets
  repeat' first
    | (with_reducible first | exact Leads.refl _ | assumption | apply insertRuns_leads | apply putGroup_leads | apply push_leads | apply check_leads | apply foldl_leads | apply ite_leads)
    | split
    | intro _ _ _

theorem rereadExpired_leads (g : Nat) (lead : Leads s t) :
    Leads s (State.rereadExpired t g) := by
  unfold State.rereadExpired
  try extract_lets
  repeat' first
    | (with_reducible first | exact Leads.refl _ | assumption | apply insertRuns_leads | apply putGroup_leads | apply push_leads | apply check_leads | apply foldl_leads | apply ite_leads)
    | split
    | intro _ _ _

theorem coldReset_leads (h : Leads s t) : Leads s t.coldReset :=
  ⟨h.pending, h.upsets, fun _ =>
    { accepted := rfl, frames := rfl, groups := rfl, tags := ⟨rfl, fun _ x => nomatch x⟩,
      holds := Nat.zero_le _, conceal := Nat.zero_le _, inFlight := Nat.zero_le _,
      tokens := Nat.zero_le _, contained := fun _ => rfl, uncontained := fun _ => rfl }⟩

theorem claimPlan_leads (c : Fin 8) (role : Role) (addr : Nat) (p : PlanBlock) (h : Leads s t) {u : State}
    (e : t.claimPlan c role addr p = .ok u) : Leads s u := by
  unfold State.claimPlan at e
  split at e
  · cases e
  · dsimp only at e
    split at e
    · cases e
      exact rejectPlan_leads _ _ _ _ _ (claimTest_leads _ h)
    · cases e
      exact loadPlan_leads _ _ _ _ _ (claimTest_leads _ h)

theorem planAnswer_leads (c : Fin 8) (status : MemStatus) (beats : List Beat) (h : Leads s t) {u : State}
    (e : t.planAnswer c status beats = .ok u) : Leads s u := by
  unfold State.planAnswer at e
  dsimp only at e
  split at e
  · cases e
    exact dropRead_leads _ h
  · split at e
    · split at e
      · cases e
        exact rejectPlan_leads _ _ _ _ _ h
      · split at e
        · cases e
          exact rejectPlan_leads _ _ _ _ _ h
        · exact claimPlan_leads _ _ _ _ (setChannel_leads _ _ h) e
    · cases e
      exact h

end Sys2Proof.Machine
end

