-- ==== Sys2Proof/WellFormed.lean ====
section
/-! DEFINITION. What a command's operands must satisfy to be one the spec describes. -/
namespace Sys2Proof

/-- The number of beats a well-formed burst of either port may carry at most (R41, R179). -/
def maxBeats : Nat := 16

/-- A command the spec describes. A recorder request may be malformed in the sense of R44: that is
an event the part answers. What no port can carry is a write of more beats than the length field
counts (R41, 0 to 31), an answer of more beats than a request asked for at most (R179, 16), and an
UNKNOWN_COMMAND whose value is one of the four commands (R80). -/
def Instr.wellFormed : Instr → Bool
  | .recorderWrite _ _ beats => decide (beats.length ≤ 31)
  | .unknownCommand _ value => !(decide (1 ≤ value.toNat) && decide (value.toNat ≤ 4))
  | .passAnswer _ _ beats => decide (beats.length ≤ maxBeats)
  | .sourceReadAnswer _ _ beats => decide (beats.length ≤ maxBeats)
  | .unknownTagResponse _ _ beats => decide (beats.length ≤ maxBeats)
  | .channelWordReadAnswer _ _ beats => decide (beats.length ≤ maxBeats)
  | .planFetchAnswer _ _ beats => decide (beats.length ≤ maxBeats)
  | .headerReadAnswer _ _ beats => decide (beats.length ≤ maxBeats)
  | .engineReadAnswer _ _ beats => decide (beats.length ≤ maxBeats)
  | .coldReset => true
  | .resetRelease _ => true
  | .recorderRead _ _ _ => true
  | .start _ => true
  | .stop _ => true
  | .abort _ => true
  | .resume _ => true
  | .load => true
  | .warmClear => true
  | .takenIndexWrite _ => true
  | .containedClassClear => true
  | .uncontainedClassClear => true
  | .issue => true
  | .rejectedStatusWriteAnswer _ _ => true
  | .statusWriteAnswer _ _ => true
  | .reportWriteAnswer _ _ => true
  | .mirrorWriteAnswer _ _ => true
  | .faultPageWriteAnswer _ _ => true
  | .concealedTailWriteAnswer _ _ => true
  | .engineWriteAnswer _ _ => true
  | .engineTailWriteAnswer _ _ => true
  | .engineRequestIssue => true
  | .concealedTailPresent => true
  | .tokenRefill => true
  | .holdExpired => true
  | .gatherDeadline _ => true
  | .rereadDeadline _ => true
  | .searchStep => true
  | .warmClearAbandon => true
  | .faultEntryAbandon => true

end Sys2Proof
end

