-- ==== Sys2Proof/Tests/Slice0.lean ====
section
/-! SUPPORT. The model's own tests: the WellFormed smoke, worked numbers of the spec, and for every statement with
hypotheses a concrete state that meets them (a witness for each clause). -/
namespace Sys2Proof.Machine

/-! ## WellFormed: an ill-formed term for each check -/

/-- A write beat of zeros with nothing enabled. -/
def zeroWrite : WriteBeat := { data := 0, enables := 0 }

theorem test_write_of_32_beats_is_ill_formed :
    (Instr.recorderWrite 0 0 (List.replicate 32 zeroWrite)).wellFormed = false := by decide
theorem test_write_of_31_beats_is_well_formed :
    (Instr.recorderWrite 0 0 (List.replicate 31 zeroWrite)).wellFormed = true := by decide
theorem test_unknown_command_1_is_ill_formed : (Instr.unknownCommand 0 1).wellFormed = false := by decide
theorem test_unknown_command_4_is_ill_formed : (Instr.unknownCommand 0 4).wellFormed = false := by decide
theorem test_unknown_command_0_and_5_are_well_formed :
    (Instr.unknownCommand 0 0).wellFormed = true ∧ (Instr.unknownCommand 0 5).wellFormed = true := by decide
theorem test_long_answers_are_ill_formed :
    (Instr.passAnswer 0 .okay (List.replicate 17 0)).wellFormed = false ∧
    (Instr.sourceReadAnswer 0 .okay (List.replicate 17 0)).wellFormed = false ∧
    (Instr.unknownTagResponse 0 .okay (List.replicate 17 0)).wellFormed = false ∧
    (Instr.channelWordReadAnswer 0 .okay (List.replicate 17 0)).wellFormed = false ∧
    (Instr.planFetchAnswer 0 .okay (List.replicate 17 0)).wellFormed = false ∧
    (Instr.headerReadAnswer 0 .okay (List.replicate 17 0)).wellFormed = false ∧
    (Instr.engineReadAnswer 0 .okay (List.replicate 17 0)).wellFormed = false := by decide
theorem test_answer_of_16_beats_is_well_formed :
    (Instr.engineReadAnswer 0 .okay (List.replicate 16 0)).wellFormed = true := by decide

/-! ## Worked numbers of the spec -/

/-- The configuration of the example of 01: arena base 4_0010_0000h, N = 8, 64 slots; ring of 16 at 2_0000_0000h. -/
def testConfig : Configuration :=
  { arenaBase := 0x400100000, slotCount := 64, sectors := 8, ringSize := 16, mode := .strict
    ringInterrupt := true, containedInterrupt := true, ringBase := 0x200000000, tokenCeiling := 100
    refillAmount := 4, refillPeriod := 10, holdLimit := 2000, wearThreshold := 0, fillPattern := 7 }

theorem test_resolve_payload :
    testConfig.resolve 0x400132A40 = { slot := 5, page := .payload 5, offset := 0xA40 } := by decide
theorem test_resolve_tail :
    testConfig.resolve 0x400135060 = { slot := 5, page := .tail, offset := 0x60 } ∧
    testConfig.byTail (testConfig.resolve 0x400135060) 1 = [3] := by decide
theorem test_resolve_unused :
    testConfig.byTail (testConfig.resolve 0x400135100) 1 = [] ∧
    testConfig.byTail (testConfig.resolve 0x400135000) 16 = [0, 1, 2, 3, 4, 5, 6, 7] := by decide
theorem test_arena_end : testConfig.inArena 0x40033FFE0 = true ∧ testConfig.inArena 0x400340000 = false := by
  decide

/-- The extent of the example of 02, from the first insertion to the collapse. -/
def exampleExtent : Extent :=
  Extent.insertAll 16 [] ([3, 7, 4, 11, 14, 6].map (fun p => { first := p, count := 1 }))

theorem test_extent_insertions :
    exampleExtent = [⟨3, 2⟩, ⟨6, 2⟩, ⟨11, 1⟩, ⟨14, 1⟩] ∧
    Extent.insert 16 exampleExtent ⟨9, 1⟩ = Extent.whole 16 := by decide
theorem test_extent_removals :
    Extent.remove [⟨1, 4⟩, ⟨6, 2⟩, ⟨9, 3⟩, ⟨13, 2⟩] 2 = ([⟨1, 4⟩, ⟨6, 2⟩, ⟨9, 3⟩, ⟨13, 2⟩], false) ∧
    Extent.remove [⟨1, 4⟩, ⟨6, 2⟩, ⟨9, 3⟩] 2 = ([⟨1, 1⟩, ⟨3, 2⟩, ⟨6, 2⟩, ⟨9, 3⟩], true) := by decide
theorem test_expected_frame_wraps :
    (List.range 4).map (fun i => (expectedFrame 0xFFFFFFFE 9 .data i).toNat) =
      [0xFFFFFFFE, 0xFFFFFFFF, 0, 1] := by decide
theorem test_coefficients :
    (List.range 12).map (fun i => (coefficient i 1).toNat) =
      [0x01, 0x02, 0x04, 0x08, 0x10, 0x20, 0x40, 0x80, 0x1D, 0x3A, 0x74, 0xE8] ∧
    (List.range 12).map (fun i => (coefficient i 2).toNat) =
      [0x01, 0x04, 0x10, 0x40, 0x1D, 0x74, 0xCD, 0x13, 0x4C, 0x2D, 0xB4, 0xEA] := by decide +kernel
theorem test_rebuild_of_three_lost_data :
    let data : List Byte := [0x12, 0x34, 0x56, 0x78, 0x9A]
    let known := [(1, 0x34), (4, 0x9A), (5, parityByte 0 data), (6, parityByte 1 data), (7, parityByte 2 data)]
    (List.range 8).map (memberByte 5 known) = data ++ (List.range 3).map (fun j => parityByte j data) := by
  decide +kernel
theorem test_audit_column :
    columnIndicates 4 3 (syndromeColumn 4 3 [1, 2, 3, 0x44, parityByte 0 [1, 2, 3, 4], parityByte 1 [1, 2, 3, 4],
      parityByte 2 [1, 2, 3, 4]]) = some 3 := by decide +kernel
theorem test_trigger_list :
    triggerList 0x100000000 0x100000100
      [{ data := 1, enables := 0xF }, { data := 1, enables := 0x7 }] = [{ word := .load, value := 1 }] := by
  decide +kernel
theorem test_plan_block_fields :
    let b : Beat := packFields [(0, 1, 4), (1, 1, 1), (2, 1, 3), (10, 2, 5), (12, 2, 6)]
    let p := PlanBlock.ofBeats [packFields [(0, 8, 0x80), (24, 4, 77), (28, 4, 1000)], b, 0, 0]
    p.link = 0x80 ∧ p.groupNumber = 77 ∧ p.firstFrame = 1000 ∧ p.dataCount = 4 ∧ p.parityCount = 1 ∧
      p.signal = true ∧ p.last = true ∧ p.audit = false ∧ p.memberSlots = [5, 6, 0, 0, 0] := by decide +kernel
theorem test_no_word_spells_a_command : decodeTableWord 32 0 = none := rfl

/-! ## Small states -/

/-- A CONFIGURED part with nothing going on. -/
def quietState : State :=
  { State.reset with
    engine := { State.reset.engine with tokens := 100, nextRefill := some 10 }
    control := { State.reset.control with part := .configured, config := some testConfig } }

/-- The same, memory writing enabled and two reports in the ring. -/
def ringState : State :=
  { quietState with control := { quietState.control with writing := true, writeIndex := 2 } }

/-- An entry of data frame 1000 of group 77. -/
def entryIn (st : FrameState) (owner : Option Nat) (ext : Extent) : FrameEntry :=
  { FrameEntry.free with
    state := st, channel := some 0, kind := some .data, frameNumber := some 1000, groupNumber := some 77
    owner := owner, extent := ext }

/-- The quiet state with one entry changed. -/
def withEntry (slot : Nat) (e : FrameEntry) : State := quietState.putFrame slot e

/-- A member that nothing has happened to. -/
def memberAt (slot : Nat) (kind : MemberKind) : Member :=
  { slot := slot, kind := kind, arrived := [], firstPass := [], requested := [], outstanding := 0,
    correctedTotal := 0, damageMark := false, failed := [] }

/-- The repair terms of the tests. -/
def testTerms : RestoreTerms :=
  { policy := .fill, reach := 1, audit := true, rereadBudget := 1, gatherLimit := 0, rereadLimit := 1 }

/-- A group of D = 2, P = 1 on slots 5, 6 and 7. -/
def groupIn (role : Role) (st : GroupState) : Group :=
  { serial := 0, channel := 0, role := role, groupNumber := 77, planAddress := 0x80, firstFrame := 1000
    dataCount := 2, parityCount := 1, state := st
    terms := match role with
      | .record => none
      | .restore => some testTerms
    gatherDeadline := none, rereadDeadline := none, rounds := 0, missing := 24, beyond := []
    members := [memberAt 5 .data, memberAt 6 .data, memberAt 7 (.parity 0)]
    counts := GroupCounts.zero, madeLost := 0, outcome := none, checkOk := true }

/-- A part with that group under Group Table entry 0, its members in the state given. -/
def withGroup (grp : Group) (fs : FrameState) (ext : Extent) : State :=
  let s := quietState.putGroup 0 grp
  [5, 6, 7].foldl (fun s k => s.putFrame k (entryIn fs (some 0) ext)) s

/-- A state with channel 0 changed. -/
def withChannel (s : State) (ch : Channel) : State := { s with channels := s.channels.set 0 ch }

/-- A state with downstream tag 3 in use. -/
def withTag (s : State) (ref : OwnerRef) (kind : RequestKind) : State :=
  { s with memPort := { s.memPort with tags := [(3, { ref := ref, kind := kind })] } }

/-- A channel context in a state with a read in flight. -/
def channelIn (st : ChannelState) (fetch : Fetch) : Channel :=
  { Channel.reset with state := st, fetch := fetch, role := some .restore, window := some 2 }

/-- The read of slot 5's page 0 and the place it resolves to. -/
def pageRead : PortRequest := { kind := .read, addr := 0x40012D000, length := 4, tag := 1, beats := [] }
/-- A write of one byte to slot 5's page 0. -/
def pageWrite : PortRequest :=
  { kind := .write, addr := 0x40012D000, length := 1, tag := 1, beats := [{ data := 7, enables := 1 }] }
/-- Where both lie. -/
def pagePlace : Place := { slot := 5, page := .payload 0, offset := 0 }

/-- What `State.ArenaRequest` asks, for a state that holds no request. -/
theorem arenaRequest_of (s : State) (r : PortRequest) (p : Place)
    (h : s.agenda = [] ∧ s.accepting = true ∧ s.port.presented = [] ∧ s.malformed r = false ∧
      s.control.part = .configured ∧ s.control.config = some testConfig ∧ testConfig.inArena r.addr = true ∧
      testConfig.resolve r.addr = p ∧ triggerList s.controlBase r.addr r.beats = [] ∧
      (s.frame p.slot).parityOk = true ∧ (s.frame p.slot).state ≠ .quarantined ∧
      ∀ h ∈ s.holds, h.slot = p.slot → h.page ≠ p.page) :
    s.ArenaRequest r testConfig p := by
  obtain ⟨a, b, c, d, e, f, g, i, j, k, l, m⟩ := h
  exact ⟨a, b, c, d, e, f, g, i, j, k, l, m⟩

/-- A held request on slot 5. -/
def heldRead (d : Nat) : Held :=
  { tag := 9, kind := .read, addr := 0x40012D000, length := 4, slot := 5, page := .tail, byPayload := none
    byTail := [0, 1], case := .repairRead, waitsOn := .group 0, groupAtHold := some (0, 77), deadline := d }

/-- The accepted-request table entry of `heldRead`. -/
def heldEntryOf : Accepted :=
  { kind := .read, addr := 0x40012D000, length := 4, beats := [], disposition := .held, triggers := []
    redirect := none, fence := none, seq := 0 }

/-- The quiet state with requests held. -/
def holding (s : State) (hs : List Held) : State :=
  { s with holds := hs, port := { s.port with accepted := [(9, heldEntryOf)] } }

/-! ## Witnesses: the block as a whole, the recorder's requests -/

theorem reset_sound : State.reset.Sound where
  kept := ⟨rfl, rfl, rfl, ⟨rfl, by decide⟩, by decide, by decide, by decide, by decide, fun _ => rfl, fun _ => rfl⟩
  irq := rfl
  done := rfl

theorem quietState_sound : quietState.Sound where
  kept := ⟨rfl, rfl, rfl, ⟨rfl, by decide⟩, by decide, by decide, by decide, by decide, fun _ => rfl, fun _ => rfl⟩
  irq := rfl
  done := rfl

theorem witness_StepKeepsSound :
    quietState.Sound ∧ step quietState = .next { quietState with time := 1 } :=
  ⟨quietState_sound, rfl⟩
theorem witness_ResetAndRelease :
    exec .coldReset quietState =
      .next { State.reset with pins := { State.reset.pins with resetLow := true } } ∧
    ({ ringState with pins := { ringState.pins with resetLow := true } } : State).agenda = [] :=
  ⟨rfl, rfl⟩
theorem witness_UnexaminedRequestsPassWaitOrAreMalformed :
    (State.reset.agenda = [] ∧ State.reset.accepting = true ∧ State.reset.port.presented = [] ∧
      State.reset.malformed pageRead = false ∧ State.reset.control.part ≠ .configured) ∧
    (requestOf (.recorderRead 0x1000 4 1) = some { pageRead with addr := 0x1000 } ∧
      quietState.accepting = true ∧ quietState.malformed { pageRead with addr := 0x1000 } = false ∧
      testConfig.inArena 0x1000 = false) ∧
    (requestOf (.recorderRead 0x40012D000 4 1) = some pageRead ∧
      State.accepting { State.reset with pins := { State.reset.pins with resetLow := true } } = false) := by
  decide +kernel
theorem witness_UnexaminedRequestsPassWaitOrAreMalformed_malformed :
    quietState.agenda = [] ∧ quietState.accepting = true ∧ quietState.port.presented = [] ∧
    requestOf (.recorderRead 0x1000 0 1) = some { pageRead with addr := 0x1000, length := 0 } ∧
    requestOf (.recorderRead 0x1000 17 1) = some { pageRead with addr := 0x1000, length := 17 } ∧
    requestOf (.recorderRead 0x1FE0 2 1) = some { pageRead with addr := 0x1FE0, length := 2 } ∧
    0x1FE0 / 4096 ≠ (0x1FE0 + (2 - 1) * 32) / 4096 ∧
    ((holding quietState []).accepted 9).isSome = true := by decide +kernel

theorem witness_ArenaRequest_read (e : FrameEntry) (h : e.parityOk = true ∧ e.state ≠ .quarantined ∧
    (withEntry 5 e).frame 5 = e) :
    requestOf (.recorderRead 0x40012D000 4 1) = some pageRead ∧
    (withEntry 5 e).ArenaRequest pageRead testConfig pagePlace := by
  have wellFormed : State.reset.malformed pageRead = false := by decide +kernel
  have noTrigger : triggerList State.reset.controlBase pageRead.addr pageRead.beats = [] := by decide +kernel
  refine ⟨by decide +kernel, arenaRequest_of _ _ _ ⟨rfl, rfl, rfl, wellFormed, rfl, rfl,
    by decide +kernel, by decide +kernel, noTrigger, ?_, ?_, fun _ h => nomatch h⟩⟩
  · rw [show pagePlace.slot = 5 from rfl, h.2.2]; exact h.1
  · rw [show pagePlace.slot = 5 from rfl, h.2.2]; exact h.2.1

/-- The extent of the witnesses: position 0. -/
def firstDamaged : Extent := [{ first := 0, count := 1 }]

theorem witness_ArenaReadPassesOrIsPoisoned :
    -- a LOST frame
    ((withEntry 5 (entryIn .lost none firstDamaged)).ArenaRequest pageRead testConfig pagePlace ∧
      ((withEntry 5 (entryIn .lost none firstDamaged)).frame 5).extent.holds 0 = true) ∧
    -- an ARRIVING frame of a GATHERING group, and of one AWAITING_REREAD
    ((withGroup (groupIn .restore .gathering) .arriving firstDamaged).ArenaRequest pageRead testConfig pagePlace ∧
      ((withGroup (groupIn .restore .gathering) .arriving firstDamaged).frame 5).extent.holds 0 = true ∧
      (withGroup (groupIn .restore .gathering) .arriving firstDamaged).ownerGroup 5 =
        some (0, groupIn .restore .gathering) ∧
      (withGroup (groupIn .restore .awaitingReread) .arriving firstDamaged).ownerGroup 5 =
        some (0, groupIn .restore .awaitingReread)) ∧
    -- a frame without damage
    ((withEntry 5 (entryIn .sealed none [])).ArenaRequest pageRead testConfig pagePlace ∧
      ((withEntry 5 (entryIn .sealed none [])).frame 5).extent.holds 0 = false) := by
  refine ⟨⟨(witness_ArenaRequest_read _ (by decide)).2, by decide⟩, ⟨arenaRequest_of _ _ _ ⟨rfl, rfl, rfl,
    by decide +kernel, rfl, rfl, by decide +kernel, by decide +kernel, by decide +kernel, by decide, by decide,
    fun _ h => nomatch h⟩, by decide, by decide, by decide⟩, (witness_ArenaRequest_read _ (by decide)).2, by decide⟩

/-- A read of four tails of slot 5, and the place it resolves to. -/
def tailRead : PortRequest := { kind := .read, addr := 0x400135000, length := 4, tag := 1, beats := [] }
/-- Where it lies. -/
def tailPlace : Place := { slot := 5, page := .tail, offset := 0 }

/-- What `State.ArenaRequest` asks of the states of the hold cases, computed. -/
theorem groupRequest_of (s : State) (r : PortRequest) (p : Place) (i : Instr)
    (h : requestOf i = some r ∧ s.agenda = [] ∧ s.accepting = true ∧ s.port.presented = [] ∧ s.malformed r = false ∧
      s.control.part = .configured ∧ s.control.config = some testConfig ∧ testConfig.inArena r.addr = true ∧
      testConfig.resolve r.addr = p ∧ triggerList s.controlBase r.addr r.beats = [] ∧
      (s.frame p.slot).parityOk = true ∧ (s.frame p.slot).state ≠ .quarantined ∧
      ∀ h ∈ s.holds, h.slot = p.slot → h.page ≠ p.page) :
    requestOf i = some r ∧ s.ArenaRequest r testConfig p :=
  ⟨h.1, arenaRequest_of _ _ _ h.2⟩

theorem witness_GroupRulesHoldOrRefuse_repairRead :
    -- a read of a damaged position of a group that is repaired, by payload and by tail
    let s := withGroup (groupIn .restore .reconstructing) .arriving firstDamaged
    ((requestOf (.recorderRead 0x40012D000 4 1) = some pageRead ∧ s.ArenaRequest pageRead testConfig pagePlace) ∧
      s.HeldUnder pageRead testConfig pagePlace (groupIn .restore .reconstructing) .repairRead) ∧
    ((requestOf (.recorderRead 0x400135000 4 1) = some tailRead ∧ s.ArenaRequest tailRead testConfig tailPlace) ∧
      s.HeldUnder tailRead testConfig tailPlace (groupIn .restore .reconstructing) .repairRead) ∧
    s.ownerGroup 5 = some (0, groupIn .restore .reconstructing) ∧
    -- a slot that no group owns, and the positions of a QUARANTINED slot
    (withEntry 5 (entryIn .sealed none [])).ownerGroup 5 = none ∧
    (withEntry 5 (entryIn .quarantined none [])).damagedAt 5 7 = true ∧
    (withEntry 5 (entryIn .quarantined none [])).damagedAt 5 8 = false ∧
    s.damagedAt 5 0 = true ∧ s.damagedAt 5 1 = false := by
  refine ⟨⟨groupRequest_of _ _ _ _ ⟨by decide +kernel, rfl, rfl, rfl, by decide +kernel, rfl, rfl, by decide +kernel,
    by decide +kernel, by decide +kernel, by decide, by decide, by decide⟩,
    Or.inr (Or.inr (Or.inr ⟨rfl, rfl, ⟨by decide, by decide⟩, 0, Or.inl (by decide), by decide⟩))⟩,
    ⟨groupRequest_of _ _ _ _ ⟨by decide +kernel, rfl, rfl, rfl, by decide +kernel, rfl, rfl, by decide +kernel,
    by decide +kernel, by decide +kernel, by decide, by decide, by decide⟩,
    Or.inr (Or.inr (Or.inr ⟨rfl, rfl, ⟨by decide, by decide⟩, 0, Or.inr (by decide), by decide⟩))⟩,
    by decide, by decide, by decide, by decide, by decide, by decide⟩

theorem witness_ArenaReadPassesOrIsPoisoned_tail :
    requestOf (.recorderRead 0x400135000 4 1) = some tailRead ∧
    ((withEntry 5 (entryIn .lost none firstDamaged)).ArenaRequest tailRead testConfig tailPlace ∧
      ((withEntry 5 (entryIn .lost none firstDamaged)).frame 5).state = .lost) ∧
    ((withEntry 5 (entryIn .concealed none firstDamaged)).ArenaRequest tailRead testConfig tailPlace ∧
      ((withEntry 5 (entryIn .concealed none firstDamaged)).frame 5).state = .concealed) ∧
    ∀ st, st = .gathering ∨ st = .awaitingReread →
      (withGroup (groupIn .restore st) .arriving firstDamaged).ArenaRequest tailRead testConfig tailPlace ∧
      ((withGroup (groupIn .restore st) .arriving firstDamaged).frame 5).state = .arriving ∧
      (withGroup (groupIn .restore st) .arriving firstDamaged).ownerGroup 5 = some (0, groupIn .restore st) := by
  refine ⟨by decide +kernel, ⟨arenaRequest_of _ _ _ ⟨rfl, rfl, rfl, by decide +kernel, rfl, rfl, by decide +kernel,
    by decide +kernel, by decide +kernel, by decide, by decide, fun _ h => nomatch h⟩, by decide⟩,
    ⟨arenaRequest_of _ _ _ ⟨rfl, rfl, rfl, by decide +kernel, rfl, rfl, by decide +kernel,
    by decide +kernel, by decide +kernel, by decide, by decide, fun _ h => nomatch h⟩, by decide⟩, ?_⟩
  rintro st (rfl | rfl) <;>
    exact ⟨arenaRequest_of _ _ _ ⟨rfl, rfl, rfl, by decide +kernel, rfl, rfl, by decide +kernel,
      by decide +kernel, by decide +kernel, by decide, by decide, fun _ h => nomatch h⟩, by decide, by decide⟩

/-- A concealment of slot 5's first position. -/
def concealedBy (src : Source) : State :=
  let s := withEntry 5 (entryIn .concealed none firstDamaged)
  { s with conceal := { s.conceal with
      table := [{ target := 5, range := { first := 0, count := 1 }, source := src, checkOk := true }] } }

theorem witness_ConcealedReadIsRedirected :
    (concealedBy (.slot 4)).ArenaRequest pageRead testConfig pagePlace ∧
    ((concealedBy (.slot 4)).frame 5).state = .concealed ∧
    ((concealedBy (.slot 4)).frame 5).extent.holds 0 = true ∧
    (concealedBy (.slot 4)).conceal.entriesOf 5 =
      [] ++ { target := 5, range := { first := 0, count := 1 }, source := .slot 4, checkOk := true } :: [] ∧
    (concealedBy .fill).ArenaRequest pageRead testConfig pagePlace ∧
    (concealedBy .fill).conceal.entriesOf 5 =
      [] ++ { target := 5, range := { first := 0, count := 1 }, source := .fill, checkOk := true } :: [] := by
  refine ⟨arenaRequest_of _ _ _ ⟨rfl, rfl, rfl, by decide +kernel, rfl, rfl, by decide +kernel, by decide +kernel,
    by decide +kernel, by decide, by decide, fun _ h => nomatch h⟩, by decide, by decide, by decide,
    arenaRequest_of _ _ _ ⟨rfl, rfl, rfl, by decide +kernel, rfl, rfl, by decide +kernel, by decide +kernel,
    by decide +kernel, by decide, by decide, fun _ h => nomatch h⟩, by decide⟩

/-- Sixteen requests held on slot 9. -/
def fullQueue (s : State) : State := { s with holds := List.replicate 16 { heldRead 5000 with slot := 9 } }

/-- A read of page 0 of a parity member. -/
def parityMember : State :=
  (withGroup (groupIn .record .sealing) .filling []).putFrame 5
    { entryIn .filling (some 0) [] with kind := some (.parity 0) }

theorem witness_GroupRulesHoldOrRefuse :
    -- a write to a member of a SEALING group, with room and with a full queue
    (let s := withGroup (groupIn .record .sealing) .filling []
     (requestOf (.recorderWrite 0x40012D000 1 [{ data := 7, enables := 1 }]) = some pageWrite ∧
       s.ArenaRequest pageWrite testConfig pagePlace) ∧
     s.ownerGroup 5 = some (0, groupIn .record .sealing) ∧
     s.HeldUnder pageWrite testConfig pagePlace (groupIn .record .sealing) .sealWrite ∧ s.holds.length < 16 ∧
     (fullQueue s).ArenaRequest pageWrite testConfig pagePlace ∧ (fullQueue s).holds.length = 16 ∧
     (fullQueue s).HeldUnder pageWrite testConfig pagePlace (groupIn .record .sealing) .sealWrite) ∧
    -- a write to a member of a group that is repaired
    (let s := withGroup (groupIn .restore .auditing) .arriving []
     (requestOf (.recorderWrite 0x40012D000 1 [{ data := 7, enables := 1 }]) = some pageWrite ∧
       s.ArenaRequest pageWrite testConfig pagePlace) ∧
     s.ownerGroup 5 = some (0, groupIn .restore .auditing) ∧
     s.HeldUnder pageWrite testConfig pagePlace (groupIn .restore .auditing) .repairWrite) ∧
    -- a read of a parity member in SEALING
    ((requestOf (.recorderRead 0x40012D000 4 1) = some pageRead ∧
       parityMember.ArenaRequest pageRead testConfig pagePlace) ∧
     parityMember.ownerGroup 5 = some (0, groupIn .record .sealing) ∧
     parityMember.HeldUnder pageRead testConfig pagePlace (groupIn .record .sealing) .sealParityRead) := by
  refine ⟨⟨groupRequest_of _ _ _ _ ⟨by decide +kernel, rfl, rfl, rfl, by decide +kernel, rfl, rfl, by decide +kernel,
    by decide +kernel, by decide +kernel, by decide, by decide, by decide⟩, by decide,
    Or.inl ⟨rfl, rfl, by decide, by decide⟩, by decide,
    arenaRequest_of _ _ _ ⟨rfl, rfl, rfl, by decide +kernel, rfl, rfl, by decide +kernel,
    by decide +kernel, by decide +kernel, by decide, by decide, by decide⟩, by decide,
    Or.inl ⟨rfl, rfl, by decide, by decide⟩⟩,
    ⟨groupRequest_of _ _ _ _ ⟨by decide +kernel, rfl, rfl, rfl, by decide +kernel, rfl, rfl, by decide +kernel,
    by decide +kernel, by decide +kernel, by decide, by decide, by decide⟩, by decide,
    Or.inr (Or.inl ⟨rfl, rfl, by decide, by decide⟩)⟩,
    groupRequest_of _ _ _ _ ⟨by decide +kernel, rfl, rfl, rfl, by decide +kernel, rfl, rfl, by decide +kernel,
    by decide +kernel, by decide +kernel, by decide, by decide, by decide⟩, by decide,
    Or.inr (Or.inr (Or.inl ⟨rfl, rfl, by decide, by decide, by decide⟩))⟩

theorem witness_QuarantinedSlotHolds :
    let s := withEntry 5 (entryIn .quarantined none [])
    requestOf (.recorderRead 0x40012D000 4 1) = some pageRead ∧ s.agenda = [] ∧ s.accepting = true ∧
    s.port.presented = [] ∧ s.malformed pageRead = false ∧ s.control.part = .configured ∧
    s.control.config = some testConfig ∧ testConfig.inArena pageRead.addr = true ∧
    triggerList s.controlBase pageRead.addr pageRead.beats = [] ∧
    (s.frame (testConfig.resolve pageRead.addr).slot).state = .quarantined ∧ s.holds.length < 16 := by
  decide +kernel

theorem witness_QuarantinedSlotHolds_failingEntry :
    let s := (withEntry 5 (entryIn .sealed none [])).strike (.frame 5)
    requestOf (.recorderRead 0x40012D000 4 1) = some pageRead ∧ s.agenda = [] ∧ s.accepting = true ∧
    s.port.presented = [] ∧ s.malformed pageRead = false ∧ s.control.part = .configured ∧
    s.control.config = some testConfig ∧ testConfig.inArena pageRead.addr = true ∧
    testConfig.resolve pageRead.addr = pagePlace ∧
    triggerList s.controlBase pageRead.addr pageRead.beats = [] ∧
    (s.frame 5).parityOk = false ∧ (s.frame 5).state ≠ .quarantined ∧ s.holds.length < 16 ∧
    s.map.search = none := by
  decide +kernel

/-- A held read of slot 5's tails, a second request being accepted after it. -/
def pageHeld : State :=
  let s := holding quietState [heldRead 5000]
  { s with port := { s.port with nextSeq := 1 } }

theorem witness_SamePageRequestIsHeld :
    requestOf (.recorderRead 0x400135000 4 1) = some tailRead ∧ pageHeld.agenda = [] ∧
    pageHeld.accepting = true ∧ pageHeld.port.presented = [] ∧ pageHeld.malformed tailRead = false ∧
    pageHeld.control.part = .configured ∧ pageHeld.control.config = some testConfig ∧
    testConfig.inArena tailRead.addr = true ∧ testConfig.resolve tailRead.addr = tailPlace ∧
    triggerList pageHeld.controlBase tailRead.addr tailRead.beats = [] ∧
    (pageHeld.frame 5).parityOk = true ∧ (pageHeld.frame 5).state ≠ .quarantined ∧
    pageHeld.holds = [] ++ heldRead 5000 :: [] ∧ (heldRead 5000).slot = tailPlace.slot ∧
    (heldRead 5000).page = tailPlace.page ∧ pageHeld.accepted (heldRead 5000).tag = some heldEntryOf ∧
    heldEntryOf.seq < pageHeld.port.nextSeq ∧ pageHeld.holds.length < 16 := by
  decide +kernel

theorem witness_QuarantinedSlotHolds_full :
    ∀ s ∈ [fullQueue (withEntry 5 (entryIn .quarantined none [])),
        fullQueue ((withEntry 5 (entryIn .sealed none [])).strike (.frame 5))],
      requestOf (.recorderRead 0x40012D000 4 1) = some pageRead ∧ s.agenda = [] ∧ s.accepting = true ∧
      s.port.presented = [] ∧ s.malformed pageRead = false ∧ s.control.part = .configured ∧
      s.control.config = some testConfig ∧ testConfig.inArena pageRead.addr = true ∧
      testConfig.resolve pageRead.addr = pagePlace ∧
      triggerList s.controlBase pageRead.addr pageRead.beats = [] ∧
      ((s.frame 5).state = .quarantined ∨ (s.frame 5).parityOk = false) ∧ s.holds.length = 16 := by
  decide +kernel

/-- The same with the held read of slot 5's tails at the end of a full queue. -/
def pageHeldFull : State :=
  { pageHeld with holds := List.replicate 15 { heldRead 5000 with slot := 9 } ++ [heldRead 5000] }

theorem witness_SamePageRequestIsHeld_full :
    pageHeldFull.agenda = [] ∧ pageHeldFull.accepting = true ∧ pageHeldFull.port.presented = [] ∧
    pageHeldFull.malformed tailRead = false ∧ pageHeldFull.control.config = some testConfig ∧
    triggerList pageHeldFull.controlBase tailRead.addr tailRead.beats = [] ∧
    (pageHeldFull.frame 5).parityOk = true ∧ (pageHeldFull.frame 5).state ≠ .quarantined ∧
    pageHeldFull.holds = List.replicate 15 { heldRead 5000 with slot := 9 } ++ heldRead 5000 :: [] ∧
    pageHeldFull.accepted (heldRead 5000).tag = some heldEntryOf ∧
    heldEntryOf.seq < pageHeldFull.port.nextSeq ∧ pageHeldFull.holds.length = 16 := by
  decide +kernel

/-- A SEALED frame in slot 5 that serves slot 4's first position. -/
def serving : State :=
  let s := (withEntry 5 (entryIn .sealed none [])).putFrame 4 (entryIn .concealed none firstDamaged)
  { s with conceal := { s.conceal with
      table := [{ target := 4, range := { first := 0, count := 1 }, source := .slot 5, checkOk := true }] } }

/-- The one target that slot 5 serves. -/
theorem serving_withdrawn (k : Nat) : serving.WithdrawnBy [5] k ↔ k = 4 := by
  simp [State.WithdrawnBy, serving, eq_comm]
  omega

theorem witness_WriteToAFinalFrameMarksItStale :
    requestOf (.recorderWrite 0x40012D000 1 [{ data := 7, enables := 1 }]) = some pageWrite ∧
    serving.ArenaRequest pageWrite testConfig pagePlace ∧ (serving.frame 5).state.vouched = true ∧
    (serving.frame 5).owner = none ∧ (∃ b ∈ pageWrite.beats, b.enables ≠ 0) ∧
    (∀ e ∈ serving.conceal.table, e.checkOk = true) ∧
    (∀ k, serving.WithdrawnBy [5] k → (serving.frame k).parityOk = true) ∧ serving.conceal.work = [] ∧
    (serving.WithdrawnBy [5] 4 ∧ (serving.frame 4).state = .concealed) ∧ serving.RingRoom := by
  refine ⟨by decide +kernel, arenaRequest_of _ _ _ ⟨rfl, rfl, rfl, by decide +kernel, rfl, rfl, by decide +kernel,
    by decide +kernel, by decide +kernel, by decide, by decide, by decide⟩, by decide, by decide, by decide,
    by decide, fun k h => ?_, rfl, ⟨(serving_withdrawn 4).2 rfl, by decide⟩, Or.inl rfl, testConfig, rfl, by decide⟩
  cases (serving_withdrawn k).1 h
  decide

theorem witness_RestoreArrivalIsReadAndTaken_read :
    let grp := groupIn .restore .gathering
    let torn : WriteBeat := { data := 0, enables := 1 }
    let whole : WriteBeat := { (tailBeat 1000 3 .corrected) with enables := BitVec.allOnes 32 }
    grp.role = .restore ∧ torn.enables ≠ 0 ∧
    (beatArrival grp 5 0 3 torn).map (·.torn) = some true ∧
    (beatArrival grp 5 0 3 whole).map (fun a => (a.misplaced, a.verdict, a.count)) =
      some (some false, some .corrected, some 0) ∧
    (beatArrival grp 5 0 4 whole).map (fun a => (a.misplaced, a.verdict)) =
      some (some true, some .unreadable) := by decide +kernel

theorem witness_RestoreArrivalIsReadAndTaken :
    let grp := groupIn .restore .gathering
    let s := withGroup grp .arriving []
    let a : Arrival := { slot := 5, member := 0, position := 3, verdict := some .unreadable, count := none,
                         torn := true, misplaced := some false }
    s.configured = true ∧ s.group 0 = some grp ∧ grp.role = .restore ∧ grp.state = .gathering ∧
    grp.members[a.member]? = some (memberAt 5 .data) ∧ (memberAt 5 .data).slot = a.slot ∧
    (s.frame a.slot).parityOk = true ∧ (s.frame a.slot).state ≠ .quarantined ∧ 1 < grp.missing := by
  decide

/-! ## Witnesses: release passes -/

/-- A read that waits on another held one under SAME_PAGE. -/
def heldFollower (d : Nat) : Held := { heldRead d with tag := 10, case := .samePage, waitsOn := .tag 9 }

theorem witness_ReleasePassTakesTheMarkedEntries :
    (let s := holding quietState [heldFollower 5000, heldRead 5000]
     s.holds = [heldFollower 5000] ++ heldRead 5000 :: [] ∧ (heldRead 5000).tag ∈ [9] ∧
       (∀ f ∈ [heldFollower 5000], f.tag ∉ [9]) ∧ (∃ f ∈ s.holds, f.waitsOn = .tag (heldRead 5000).tag) ∧
       (∀ h ∈ s.holds, h.tag ∉ [8]) ∧
       (∀ t ∈ s.agenda, t.presents = false) ∧
       ({ s with agenda := [.present 1, .takeJob] } : State).agenda = [] ++ .present 1 :: [.takeJob]) ∧
    (let s := holding (withGroup (groupIn .restore .reconstructing) .arriving []) [heldRead 5000]
     s.group 0 = some (groupIn .restore .reconstructing) ∧
       (∀ h ∈ s.holds, h.waitsOn = .group 0 → (s.frame h.slot).parityOk = true) ∧
       (∃ h ∈ s.holds, h.waitsOn = .group 0 ∧ h.case = .repairRead ∧
         ∀ q ∈ h.byPayload.toList ++ h.byTail, q ≤ 1 ∧ s.damagedAt h.slot q = false)) ∧
    (withGroup (groupIn .restore .auditing) .arriving []).group 0 = some (groupIn .restore .auditing) := by
  decide

/-! ## Witnesses: channel commands -/

theorem witness_CommandsNotTakenChangeOnlyTheirResult :
    (commandOf (.stop 0) = some (0, .stop) ∧ State.reset.agenda = [] ∧ State.reset.pins.resetLow = false ∧
      State.reset.control.part = .blank) ∧
    (quietState.control.part = .configured ∧ (quietState.channel 0).state.accepts .stop = false) ∧
    ({ quietState with control := { quietState.control with part := .clearing } } : State).control.part =
      .clearing ∧
    ((0 : Word32).toNat = 0 ∧ 4 < (5 : Word32).toNat) := by decide

theorem witness_StartAndResumeReadTheChannelWord :
    quietState.agenda = [] ∧ quietState.pins.resetLow = false ∧ quietState.control.part = .configured ∧
    (quietState.channel 0).state = .disabled ∧
    ((withChannel quietState (channelIn .waiting .none)).channel 0).state = .waiting := by decide

theorem witness_StopAndAbortEndTheChannel :
    let s := withChannel quietState (channelIn .waiting .none)
    let r := withChannel (quietState.putGroup 0 (groupIn .record .retiring))
      { channelIn .active .none with occupied := 1 }
    ((s.channel 0).state.accepts .stop = true ∧ (s.channel 0).state ≠ .disabled ∧ s.agenda = [] ∧
      s.pins.resetLow = false ∧ s.control.part = .configured) ∧
    ((r.channel 0).state ≠ .disabled ∧ Table.wf r.groups.entries = true ∧
      ∀ g grp, r.group g = some grp → grp.channel = 0 → grp.state = .retiring) := by
  refine ⟨by decide, by decide, by decide, fun g grp h _ => ?_⟩
  simp only [State.group, withChannel, State.putGroup, quietState, State.reset, Table.put, Table.get] at h
  split at h
  · cases h; rfl
  · cases h

/-- The engine at work on group 0. -/
def engineAt (kind : JobKind) (position : Nat) (ops : List EngineRequest) : Engine :=
  { quietState.engine with
    state := .running, service := some (0, kind), cursor := some position, inFlight := ops }

/-- A read of member 0, seven of its eight bursts answered. -/
def readAlmostDone : EngineRequest :=
  { id := 0, member := 0, op := .readSector, answered := (List.range 7).map (fun k => (k, [])), failed := false }

/-- A read of member 1 of which nothing is answered. -/
def readWaiting : EngineRequest := { id := 1, member := 1, op := .readSector, answered := [], failed := false }

theorem witness_AbandonedGroupsEnd_inService :
    let grp := groupIn .record .sealing
    let s := withChannel { withGroup grp .filling [] with engine := engineAt .seal 0 [readWaiting] }
      { channelIn .active .none with occupied := 1 }
    s.agenda = [] ∧ s.pins.resetLow = false ∧ s.control.part = .configured ∧ (s.channel 0).state ≠ .disabled ∧
    (s.channel 0).state ≠ .closing ∧ 0 < (s.channel 0).occupied ∧ s.channelGroups 0 = [0] ∧
    s.group 0 = some grp ∧ grp.live = true ∧ grp.state ≠ .abandoning ∧
    s.engine.service = some (0, .seal) ∧ s.engine.inFlight ≠ [] := by decide

theorem witness_AbandonedGroupsEnd :
    (let grp := groupIn .record .collecting
     let s := withGroup grp .filling []
     s.group 0 = some grp ∧ grp.state ≠ .concealing ∧ (∀ m ∈ grp.members, (s.frame m.slot).parityOk = true) ∧
       (grp.members.map (·.slot)).Nodup) ∧
    (let grp := groupIn .restore .gathering
     let s := withGroup grp .arriving firstDamaged
     s.group 0 = some grp ∧ grp.state ≠ .concealing ∧ grp.role = .restore ∧
       (∀ m ∈ grp.members, (s.frame m.slot).parityOk = true ∧ (s.frame m.slot).extent ≠ [])) := by decide

/-- A group of channel 0 outside service, its job in the queue between two others. -/
def queuedState (grp : Group) (fs : FrameState) (ext : Extent) : State :=
  let s := withChannel (withGroup grp fs ext) { channelIn .active .none with occupied := 1 }
  { s with engine := { quietState.engine with
      queue := [1, 0, 2].map (fun g => { group := g, kind := .rebuild, promoted := false }) } }

theorem witness_AbandonedGroupsEnd_outsideService :
    ∀ st ∈ [GroupState.gathering, .reconstructing, .concealing],
      let grp := groupIn .restore st
      let s := { queuedState grp .arriving firstDamaged with conceal := {
        table := [{ target := 5, range := { first := 0, count := 1 }, source := .fill, checkOk := true }]
        work := [{ group := 0, serial := 0, outstanding := 1
                   pending := [{ slot := 5, position := 0, frameNumber := 1000 }] }] } }
      s.agenda = [] ∧ s.pins.resetLow = false ∧ s.control.part = .configured ∧
      (s.channel 0).state ≠ .disabled ∧ (s.channel 0).state ≠ .closing ∧ 0 < (s.channel 0).occupied ∧
      s.channelGroups 0 = [0] ∧ s.group 0 = some grp ∧ grp.live = true ∧ grp.state ≠ .abandoning ∧
      (s.engine.service.map (·.1)) ≠ some 0 ∧ (∀ e ∈ s.conceal.table, e.checkOk = true) ∧
      (∀ m ∈ grp.members, (s.frame m.slot).parityOk = true) ∧ (grp.members.map (·.slot)).Nodup ∧
      ∀ h ∈ s.holds, h.waitsOn ≠ .group 0 := by decide

/-- Three groups of channel 0: one in service with nothing in flight, one with its job queued, one in another state. -/
def severalState (st : GroupState) : State :=
  let s := withChannel (withGroup (groupIn .restore .reconstructing) .arriving firstDamaged)
    { channelIn .active .none with occupied := 3 }
  let s := (s.putGroup 1 { groupIn .restore .auditing with serial := 1, members := [memberAt 15 .data] }).putGroup 2
    { groupIn .restore st with serial := 2, members := [memberAt 25 .data] }
  { s with engine := { engineAt .rebuild 0 [] with
      queue := [{ group := 1, kind := .audit, promoted := false }] } }

theorem witness_AbandonedGroupsEnd_several :
    (∀ st ∈ [GroupState.gathering, .concealing],
      let s := severalState st
      s.agenda = [] ∧ s.pins.resetLow = false ∧ s.control.part = .configured ∧
      (s.channel 0).state ≠ .disabled ∧ (s.channel 0).state ≠ .closing ∧ 0 < (s.channel 0).occupied ∧
      Table.wf s.groups.entries = true ∧ s.channelGroups 0 = [0, 1, 2] ∧ s.holds = [] ∧
      s.conceal.table = [] ∧ s.conceal.work = [] ∧
      (∀ e ∈ s.groups.entries, e.2.state ≠ .abandoning ∧
        ∀ m ∈ e.2.members, (s.frame m.slot).parityOk = true) ∧
      (∀ j ∈ s.engine.queue, j.group = 1) ∧ s.engine.service = some (0, .rebuild) ∧ s.engine.inFlight = []) ∧
    .abandon 1 ∈ ({ severalState .concealing with agenda := [.concealed 1, .abandon 1] } : State).agenda := by
  decide

/-! ## Witnesses: loads, clears, the taken index, the port -/

theorem witness_LoadReadsTheHeaderOrIsBusy :
    (State.reset.agenda = [] ∧ State.reset.pins.resetLow = false ∧ State.reset.control.part = .blank ∧
      State.reset.control.loadPending = none) ∧
    (quietState.control.part = .configured ∧ ∀ c : Fin 8, (quietState.channel c).state = .disabled) ∧
    ∃ c : Fin 8, ((withChannel quietState (channelIn .active .none)).channel c).state ≠ .disabled := by
  refine ⟨by decide, by decide, 0, by decide⟩

/-- A FAULTED part whose entry is complete. -/
def faultedState : State := { quietState with control := { quietState.control with part := .faulted } }

theorem witness_WarmClearBegins :
    (quietState.agenda = [] ∧ quietState.pins.resetLow = false ∧ quietState.control.part = .configured ∧
      quietState.engine.state ≠ .quiet ∧ quietState.holds = []) ∧
    (faultedState.control.part = .faulted ∧ faultedState.control.entering = false) ∧
    ((holding quietState [heldRead 5000]).holds = [heldRead 5000] ∧
      ((holding quietState [heldRead 5000]).accepted 9).isSome = true) := by decide

/-- A BLANK part that holds nothing. -/
def blankState : State := State.reset

/-- A part whose fault entry is under way. -/
def faultingState : State :=
  { quietState with control := { quietState.control with part := .faulted, entering := true } }

theorem witness_WarmClearBegins_elsewhere :
    (blankState.agenda = [] ∧ blankState.pins.resetLow = false ∧ blankState.control.part = .blank ∧
      ∀ e ∈ blankState.conceal.table, e.checkOk = true) ∧
    ({ quietState with control := { quietState.control with part := .clearing } } : State).control.part =
      .clearing ∧
    (faultingState.control.part = .faulted ∧ faultingState.control.entering = true ∧ faultingState.agenda = [] ∧
      faultingState.pins.resetLow = false) ∧
    (holding quietState [heldRead 5000, heldFollower 5000]).holds.length = 2 := by decide

theorem witness_TakenIndexIsJudged :
    ringState.agenda = [] ∧ ringState.pins.resetLow = false ∧ ringState.control.part = .configured ∧
    ringState.control.config = some testConfig ∧ ringState.control.writing = true ∧
    -- values at the ends of the forward path and beyond it
    ringState.control.takenAccepted 16 0 = true ∧ ringState.control.takenAccepted 16 2 = true ∧
    ringState.control.takenAccepted 16 3 = false ∧ ringState.control.takenAccepted 16 16 = false ∧
    State.reset.control.part = .blank ∧ faultedState.control.part = .faulted := by decide

theorem witness_ClassClearEmptiesItsClass :
    ringState.agenda = [] ∧ ringState.pins.resetLow = false ∧ ringState.control.writing = true := by decide

theorem witness_InterruptLevel :
    exec .issue quietState = .next quietState ∧ ringState.interrupt = true ∧ quietState.interrupt = false :=
  ⟨rfl, by decide, by decide⟩

/-- A PASS, a SERVICE and an ENGINE request waiting. -/
def threeLists : State :=
  { quietState with memPort := { quietState.memPort with
      passList := [readRequest (.pass 9) 0x40012D000 4], serviceList := [readRequest .header 0 8]
      engineList := [readRequest (.engineRead 0 0) 0x40012D000 16] } }

/-- The same under FAIR, a class served last. -/
def fairLists (last : RequestClass) : State :=
  { threeLists with
    memPort := { threeLists.memPort with lastServed := last }
    control := { quietState.control with config := some { testConfig with mode := .fair } } }

theorem witness_StrictChoice :
    threeLists.mode = .strict ∧ threeLists.chosenClass = some .pass ∧ threeLists.memPort.passList ≠ [] := by
  decide
theorem witness_FairChoiceAndTheIssue :
    (fairLists .engine).mode = .fair ∧ (fairLists .engine).chosenClass = some .pass ∧
    (fairLists .pass).chosenClass = some .service ∧ (fairLists .service).chosenClass = some .engine := by decide
theorem witness_FairChoiceAndTheIssue_issue :
    threeLists.agenda = [] ∧ Table.lowestFree 32 threeLists.memPort.tags = some 0 ∧
    threeLists.chosenClass = some .pass ∧
    threeLists.memPort.list .pass = readRequest (.pass 9) 0x40012D000 4 :: [] ∧
    (holding threeLists []).accepted 9 = some heldEntryOf ∧
    ({ threeLists with memPort := { threeLists.memPort with passList := [] } } : State).chosenClass =
      some .service := by decide

theorem witness_MemoryAnswersTheRecordersRequests :
    (withTag (holding quietState []) (.pass 9) .read).tagRef 3 = some (.pass 9) ∧
    (withTag (holding quietState []) (.sourceRead 9) .read).tagRef 3 = some (.sourceRead 9) ∧
    (withTag (holding quietState []) (.pass 9) .read).accepted 9 = some heldEntryOf ∧
    (withTag (holding quietState []) (.pass 9) .read).agenda = [] ∧ heldEntryOf.kind = .read ∧
    heldEntryOf.triggers = [] := by decide

/-- A write of the taken index that has been issued. -/
def takenWrite : Accepted :=
  { heldEntryOf with kind := .write, disposition := .issued, triggers := [{ word := .taken, value := 2 }] }

theorem witness_AnsweredTriggerWriteActs :
    let s : State := withTag { ringState with port := { ringState.port with accepted := [(9, takenWrite)] } }
      (.pass 9) .write
    s.agenda = [] ∧ s.tagRef 3 = some (.pass 9) ∧ s.accepted 9 = some takenWrite ∧
    s.control.part = .configured ∧ s.control.config = some testConfig ∧
    s.control.takenAccepted testConfig.ringSize (2 : Word32).toNat = true := by decide

/-- A write of one beat at the clear word, all four of its bytes enabled or three. -/
theorem witness_AnsweredTriggerWriteActs_words :
    triggerList quietState.controlBase (quietState.controlBase + 0x120) [{ data := 1, enables := 0xF }] =
      [{ word := .clear, value := 1 }] ∧
    triggerList quietState.controlBase (quietState.controlBase + 0x120) [{ data := 1, enables := 0x7 }] = [] ∧
    triggerList quietState.controlBase (quietState.controlBase + 0x100)
        [{ data := 1, enables := 0xF }, { data := 1, enables := 0xF }] =
      [{ word := .load, value := 1 }, { word := .clear, value := 1 }] := by decide +kernel

/-- A write of the clear word and of channel 0's command word. -/
def clearStartWrite : Accepted :=
  { takenWrite with triggers := [{ word := .clear, value := 1 }, { word := .command 0, value := 1 }] }

theorem witness_AnsweredTriggerWriteActs_list :
    (let s : State := withTag { quietState with port := { quietState.port with accepted := [(9, clearStartWrite)] } }
       (.pass 9) .write
     s.agenda = [] ∧ s.tagRef 3 = some (.pass 9) ∧ s.accepted 9 = some clearStartWrite ∧
       clearStartWrite.kind = .write ∧ s.control.part = .configured) ∧
    ({ quietState with agenda := [.trigger { word := .taken, value := 2 }] } : State).agenda =
      .trigger { word := .taken, value := 2 } :: [] ∧
    quietState.pins.resetLow = false ∧ (0 : Word32) ≠ 1 ∧
    -- a word of a value other than 1 starts nothing
    quietState.takeTrigger { word := .load, value := 2 } = quietState := by decide

theorem witness_AnswersWithoutFurtherEffect :
    (quietState.Sound ∧ quietState.tagRef 3 = none) ∧
    ((withTag quietState (.mirror 0) .write).tagRef 3 = some (.mirror 0) ∧
      (withTag quietState (.faultPage 0) .write).tagRef 3 = some (.faultPage 0)) ∧
    (withTag quietState (.mirror 8) .write).Sound :=
  ⟨⟨quietState_sound, rfl⟩, ⟨rfl, rfl⟩,
    ⟨⟨rfl, rfl, rfl, ⟨rfl, by decide⟩, by decide, by decide, by decide, by decide, fun _ => rfl, fun _ => rfl⟩,
      rfl, rfl⟩⟩

/-! ## Witnesses: channel words, plans, status writes -/

/-- A channel word: head, role code, window. -/
def wordBeats (head role window : Nat) : List Beat := [packFields [(0, 8, head), (8, 1, role), (9, 1, window)], 0]

theorem witness_ChannelWordIsJudged :
    let s := withTag (withChannel quietState (channelIn .loading (.channelWord false))) (.channelWord 0) .read
    s.agenda = [] ∧ s.tagRef 3 = some (.channelWord 0) ∧ s.control.part = .configured ∧
    (s.channel 0).discard = false ∧ (s.channel 0).fetch = .channelWord false ∧
    (s.channel 0).state = .loading ∧ (s.channel 0).occupied = 0 ∧
    -- the window at both ends of its range
    Role.ofCode (beatsField (wordBeats 0x80 1 1) 8 1) = some .record ∧ beatsField (wordBeats 0x80 1 1) 9 1 = 1 ∧
    Role.ofCode (beatsField (wordBeats 0x80 2 4) 8 1) = some .restore ∧ beatsField (wordBeats 0x80 2 4) 9 1 = 4 ∧
    addressField (wordBeats 0x80 1 1) 0 = 0x80 := by decide +kernel

/-- A channel whose read is to be dropped, the part in the state given. -/
def dropping (part : PartState) (ch : ChannelState) (ref : OwnerRef) (fetch : Fetch) : State :=
  let s := withTag (withChannel quietState { channelIn ch fetch with discard := true }) ref .read
  { s with control := { s.control with part := part, entering := part == .faulted } }

theorem witness_ChannelWordIsJudged_dropped :
    (∀ part ∈ [PartState.configured, .clearing, .faulted], ∀ ch ∈ [ChannelState.loading, .draining, .closing],
      (let s := dropping part ch (.channelWord 0) (.channelWord false)
       s.agenda = [] ∧ s.tagRef 3 = some (.channelWord 0) ∧ (s.channel 0).discard = true ∧
         (s.channel 0).occupied = 0) ∧
      (let s := dropping part ch (.planFetch 0) (.plan 0x80)
       s.agenda = [] ∧ s.tagRef 3 = some (.planFetch 0) ∧ (s.channel 0).discard = true)) ∧
    (dropping .configured .draining (.planFetch 0) (.plan 0x80)).RingRoom := by
  refine ⟨by decide, .inl rfl, testConfig, rfl, by decide⟩


/-- A channel reading its word at RESUME, with groups occupied. -/
def resuming (occupied : Nat) : State :=
  withTag (withChannel quietState { channelIn .loading (.channelWord true) with occupied := occupied })
    (.channelWord 0) .read

theorem witness_ChannelWordIsJudged_resume :
    ∀ occupied ∈ [1, 2],
      (resuming occupied).agenda = [] ∧ (resuming occupied).tagRef 3 = some (.channelWord 0) ∧
      (resuming occupied).control.part = .configured ∧ ((resuming occupied).channel 0).discard = false ∧
      ((resuming occupied).channel 0).fetch = .channelWord true ∧
      ((resuming occupied).channel 0).role = some .restore ∧
      ((resuming occupied).channel 0).window = some 2 ∧
      -- room for one more, and a full window
      (occupied = 1 ↔ ((resuming occupied).channel 0).occupied < 2) ∧
      addressField (wordBeats 0x80 0 0) 0 = 0x80 := by decide +kernel

theorem witness_ChannelWordIsJudged_otherwise :
    (∀ resume, (withTag (withChannel quietState (channelIn .loading (.channelWord resume))) (.channelWord 0)
      .read).tagRef 3 = some (.channelWord 0)) ∧
    ((withTag (withChannel quietState { channelIn .draining (.channelWord true) with discard := true })
      (.channelWord 0) .read).channel 0).discard = true ∧
    Role.ofCode (beatsField (wordBeats 0 0 1) 8 1) = none ∧ beatsField (wordBeats 0 1 0) 9 1 = 0 ∧
    4 < beatsField (wordBeats 0 1 5) 9 1 ∧ addressField (wordBeats 0x40 1 1) 0 % 128 ≠ 0 ∧
    addressField (wordBeats 0 1 1) 0 = 0 := by decide +kernel

/-- A plan block read from its fields: D, P, policy, reach, budget, reread limit, link, slots. -/
def planOf (d p policy reach budget limit link : Nat) (slots : List Nat) : PlanBlock :=
  { link := link, groupNumber := 77, firstFrame := 1000, dataCount := d, parityCount := p, signal := false
    last := true, audit := true, policy := policy, reach := reach, rereadBudget := budget, gatherLimit := 0
    rereadLimit := limit, slots := slots }

theorem witness_PlanIsCheckedInOrderAndRejected_checks :
    (planOf 1 1 0 1 0 1 0 [5, 6, 7]).check (some .restore) 64 = some (.counts, none) ∧
    (planOf 13 1 0 1 0 1 0 [5, 6, 7]).check (some .record) 64 = some (.counts, none) ∧
    (planOf 2 4 0 1 0 1 0 [5, 6, 7]).check (some .record) 64 = some (.counts, none) ∧
    (planOf 2 1 3 1 0 1 0 [5, 6, 7]).check (some .restore) 64 = some (.field, none) ∧
    (planOf 2 1 3 1 0 1 0 [5, 6, 7]).check (some .record) 64 = none ∧
    (planOf 2 1 2 0 0 1 0 [5, 6, 7]).check (some .restore) 64 = some (.field, none) ∧
    (planOf 2 1 2 4 4 1 0 [5, 6, 7]).check (some .restore) 64 = some (.field, none) ∧
    (planOf 2 1 2 4 3 0 0 [5, 6, 7]).check (some .restore) 64 = some (.field, none) ∧
    (planOf 2 1 2 4 3 1 0 [5, 64, 5]).check (some .restore) 64 = some (.slotRange, some 64) ∧
    (planOf 2 1 2 4 3 1 64 [5, 63, 5]).check (some .restore) 64 = some (.slotRepeat, some 5) ∧
    (planOf 2 1 2 4 3 1 64 [5, 63, 7]).check (some .restore) 64 = some (.align, none) ∧
    (planOf 2 1 2 4 3 1 128 [5, 63, 7]).check (some .restore) 64 = none := by decide +kernel

/-- The beats of a plan of D = 2, P = 1 on slots 5, 6 and 7, with a policy code. -/
def planBeats (policy : Nat) : List Beat :=
  [packFields [(24, 4, 77), (28, 4, 1000)],
   packFields [(0, 1, 2), (1, 1, 1), (2, 1, 6), (3, 1, policy), (4, 1, 1), (5, 1, 1), (6, 2, 1), (8, 2, 1), (10, 2, 5),
     (12, 2, 6), (14, 2, 7)], 0, 0]

/-- A channel waiting for its plan at 80h. -/
def fetching (s : State) : State :=
  withTag (withChannel s (channelIn .loading (.plan 0x80))) (.planFetch 0) .read

theorem witness_PlanIsCheckedInOrderAndRejected :
    let s := fetching quietState
    let busy := fetching (withEntry 6 (entryIn .filling (some 9) []))
    s.agenda = [] ∧ s.tagRef 3 = some (.planFetch 0) ∧ s.control.part = .configured ∧
    s.control.config = some testConfig ∧ (s.channel 0).discard = false ∧ (s.channel 0).fetch = .plan 0x80 ∧
    (s.channel 0).role = some .restore ∧
    (PlanBlock.ofBeats (planBeats 3)).check (some .restore) 64 = some (.field, none) ∧
    (PlanBlock.ofBeats (planBeats 1)).check (some .restore) 64 = none ∧
    Table.lowestFree 32 busy.groups.entries = some 0 ∧
    (∀ j ∈ (PlanBlock.ofBeats (planBeats 1)).memberSlots, (busy.frame j).parityOk = true) ∧
    (∃ j ∈ (PlanBlock.ofBeats (planBeats 1)).memberSlots, (busy.frame j).state = .filling) := by decide +kernel

theorem witness_ValidPlanMakesAGroup :
    let s := fetching quietState
    let p := PlanBlock.ofBeats (planBeats 1)
    s.tagRef 3 = some (.planFetch 0) ∧ (s.channel 0).fetch = .plan 0x80 ∧ p.check (some .restore) 64 = none ∧
    Table.lowestFree 32 s.groups.entries = some 0 ∧
    (∀ j ∈ p.memberSlots, (s.frame j).parityOk = true ∧ (s.frame j).state ≠ .filling ∧
      (s.frame j).state ≠ .arriving ∧ (s.frame j).state ≠ .quarantined) ∧
    s.conceal.table = [] ∧ s.conceal.work = [] := by decide +kernel

/-- A waiting channel whose plan finds all 32 entries occupied. -/
def fullTable : State :=
  fetching { quietState with groups := {
    entries := (List.range 32).map (fun g => (g, { groupIn .record .collecting with members := [] }))
    nextSerial := 32 } }

theorem witness_OnlyAFullGroupTableStops :
    (match exec (.planFetchAnswer 3 .okay (planBeats 1)) fullTable with
      | .fault .groupTableFull => true
      | _ => false) = true := by decide +kernel

/-- A RETIRING group whose status write is out. -/
def retiringGroup : Group := { groupIn .record .retiring with outcome := some .sealed }

theorem witness_StatusWriteAnswers :
    ((withTag quietState (.rejectedStatus 0 0x80 0) .write).tagRef 3 =
        some (.rejectedStatus 0 0x80 quietState.control.era)) ∧
    (let s := withTag (withGroup retiringGroup .sealed []) (.status 0 0) .write
     s.agenda = [] ∧ s.tagRef 3 = some (.status 0 retiringGroup.serial) ∧ s.control.part = .configured ∧
       s.group 0 = some retiringGroup ∧ retiringGroup.state = .retiring ∧
       retiringGroup.outcome = some .sealed) := by decide

theorem witness_StatusWriteAnswers_report :
    let s := withTag (withGroup retiringGroup .sealed []) (.status 0 0) .write
    s.RingRoom ∧ (s.channel retiringGroup.channel).state ≠ .draining ∧
    (s.channel retiringGroup.channel).state ≠ .closing := by
  exact ⟨⟨Or.inl rfl, testConfig, rfl, by decide⟩, by decide, by decide⟩

/-! ## Witnesses: RECORD and RESTORE groups -/

/-- A COLLECTING group whose member 0 lacks position 3, and `missing` positions in all. -/
def collectingGroup (missing p : Nat) : Group :=
  { groupIn .record .collecting with
    missing := missing, parityCount := p
    members := [{ memberAt 5 .data with arrived := [0, 1, 2, 4, 5, 6, 7] }, memberAt 6 .data,
      memberAt 7 (.parity 0)] }

/-- The write of slot 5's tail of position 3. -/
def tailWriteRequest : PortRequest :=
  { kind := .write, addr := 0x400135060, length := 1, tag := 1, beats := [{ data := 7, enables := 1 }] }
/-- Where it lies. -/
def tailWritePlace : Place := { slot := 5, page := .tail, offset := 0x60 }

theorem witness_CompletedCollectionIsSealed :
    (∀ missing ∈ [1, 2], ∀ p ∈ [0, 1],
      (withGroup (collectingGroup missing p) .filling []).configured = true ∧
      (withGroup (collectingGroup missing p) .filling []).group 0 = some (collectingGroup missing p) ∧
      (collectingGroup missing p).role = .record ∧ (collectingGroup missing p).state = .collecting ∧
      (collectingGroup missing p).members[0]? =
        some { memberAt 5 .data with arrived := [0, 1, 2, 4, 5, 6, 7] }) ∧
    (groupIn .record .sealing).state ≠ .collecting ∧
    (let s := withGroup (collectingGroup 1 1) .filling []
     requestOf (.recorderWrite 0x400135060 1 [{ data := 7, enables := 1 }]) = some tailWriteRequest ∧
       s.ArenaRequest tailWriteRequest testConfig tailWritePlace ∧ tailWritePlace.page = .tail ∧
       testConfig.byTail tailWritePlace 1 = [3] ∧ (s.frame 5).state = .filling ∧
       s.ownerGroup 5 = some (0, collectingGroup 1 1) ∧ (collectingGroup 1 1).place 5 = some 0 ∧
       0 < (collectingGroup 1 1).dataCount ∧ (collectingGroup 1 1).missing = 1 ∧
       1 ≤ (collectingGroup 1 1).parityCount ∧ s.engine.state = .idle ∧ s.engine.queue = []) := by
  refine ⟨by decide, by decide, by decide +kernel, arenaRequest_of _ _ _ ⟨rfl, rfl, rfl, by decide +kernel, rfl, rfl,
    by decide +kernel, by decide +kernel, by decide +kernel, by decide, by decide, fun _ h => nomatch h⟩, rfl,
    by decide, by decide, by decide, by decide, by decide, by decide, by decide, rfl, rfl⟩

/-- An arrival at a position of slot 5. -/
def arrivalAt (position : Nat) (v : Verdict) : Arrival :=
  { slot := 5, member := 0, position := position, verdict := some v, count := none, torn := false
    misplaced := some false }

/-- A GATHERING group whose member 0 lacks position 3, which is the last one missing. -/
def gatheringGroup : Group :=
  { groupIn .restore .gathering with
    missing := 1, members := [{ memberAt 5 .data with arrived := [0, 1, 2, 4, 5, 6, 7] }, memberAt 6 .data,
      memberAt 7 (.parity 0)] }

/-- An AWAITING_REREAD group whose member 0 is asked for the positions given. -/
def askedGroup (asked : Positions) : Group :=
  { groupIn .restore .awaitingReread with
    rounds := 1, rereadDeadline := some 5000
    members := [{ memberAt 5 .data with requested := asked, outstanding := asked.length }, memberAt 6 .data,
      memberAt 7 (.parity 0)] }

/-- A good tail of position 3 of slot 5. -/
def cleanTail : WriteBeat := { (tailBeat 1000 3 .clean) with enables := BitVec.allOnes 32 }

/-- The write of it. -/
def cleanTailRequest : PortRequest :=
  { kind := .write, addr := 0x400135060, length := 1, tag := 1, beats := [cleanTail] }

theorem witness_RestoreArrivalIsReadAndTaken_last :
    -- an arrival that completes the gathering
    (let s := withGroup gatheringGroup .arriving firstDamaged
     s.configured = true ∧ s.group 0 = some gatheringGroup ∧ gatheringGroup.role = .restore ∧
       gatheringGroup.state = .gathering ∧ (s.frame 5).parityOk = true ∧ (s.frame 5).state ≠ .quarantined ∧
       (((s.arrive 0 (arrivalAt 3 .clean)).group 0).map (·.missing)) = some 0) ∧
    -- an arrival at a requested position, the last one or not, and one outside the requested set
    (∀ asked ∈ [[3], [0, 3], [0]],
      let s := withGroup (askedGroup asked) .arriving firstDamaged
      s.configured = true ∧ s.group 0 = some (askedGroup asked) ∧ (askedGroup asked).role = .restore ∧
        (askedGroup asked).state = .awaitingReread ∧ (s.frame 5).parityOk = true ∧
        (s.frame 5).state ≠ .quarantined ∧
        (s.arrive 0 (arrivalAt 3 .clean)).agenda = if asked = [3] then [.check 0] else []) := by decide

theorem witness_RestoreArrivalIsReadAndTaken_write :
    let s := { (withGroup gatheringGroup .arriving []).putFrame 5 (entryIn .arriving (some 0) firstDamaged) with
      engine := { engineAt .seal 0 [] with service := some (9, .seal) } }
    requestOf (.recorderWrite 0x400135060 1 [cleanTail]) = some cleanTailRequest ∧
    s.ArenaRequest cleanTailRequest testConfig tailWritePlace ∧ testConfig.byTail tailWritePlace 1 = [3] ∧
    (s.frame 5).state = .arriving ∧ s.ownerGroup 5 = some (0, gatheringGroup) ∧
    gatheringGroup.terms = some testTerms ∧ testTerms.audit = true ∧ 1 ≤ gatheringGroup.parityCount ∧
    gatheringGroup.place 5 = some 0 ∧ gatheringGroup.missing = 1 ∧
    beatArrival gatheringGroup 5 0 3 cleanTail = some (arrivalAt 3 .clean) ∧ testConfig.wearThreshold = 0 ∧
    s.engine.state = .running ∧ (∀ n ∈ gatheringGroup.members, (s.frame n.slot).parityOk = true) ∧
    (s.arrive 0 (arrivalAt 3 .clean)).beyondParity gatheringGroup = [] := by
  refine ⟨by decide +kernel, arenaRequest_of _ _ _ ⟨rfl, rfl, rfl, by decide +kernel, rfl, rfl,
    by decide +kernel, by decide +kernel, by decide +kernel, by decide, by decide, fun _ h => nomatch h⟩,
    by decide, by decide, by decide, rfl, rfl, by decide, by decide, rfl, by decide +kernel, rfl, rfl, by decide,
    by decide⟩

/-- A SEALING group whose parity member failed at position 2. -/
def degradedGroup : Group :=
  { groupIn .record .sealing with
    members := [memberAt 5 .data, memberAt 6 .data, { memberAt 7 (.parity 0) with failed := [2] }] }

theorem witness_SealedGroupRetires :
    (∀ failed : Bool, ∃ s : State, s.engine.context.readFailed = failed ∧ 1 ≤ (groupIn .record .sealing).parityCount) ∧
    (let s := { withGroup degradedGroup .filling [] with engine := engineAt .seal 7 [] }
     s.engine.state = .running ∧ s.engine.service = some (0, .seal) ∧ s.engine.cursor = some 7 ∧
       s.group 0 = some degradedGroup ∧ s.sectors ≤ 7 + 1) ∧
    (∀ grp ∈ [groupIn .record .sealing, degradedGroup],
      (withGroup grp .filling []).configured = true ∧ (withGroup grp .filling []).group 0 = some grp ∧
      grp.role = .record ∧ grp.state ≠ .retiring ∧
      (∀ m ∈ grp.members, ((withGroup grp .filling []).frame m.slot).parityOk = true) ∧
      (grp.members.map (·.slot)).Nodup ∧ ∀ t ∈ (withGroup grp .filling []).agenda, t.presents = false) ∧
    (∃ m ∈ degradedGroup.members, m.failed ≠ []) ∧
    ((withGroup retiringGroup .sealed []).group 0 = some retiringGroup ∧ retiringGroup.outcome = some .sealed ∧
      (withGroup retiringGroup .sealed []).configured = true ∧ faultedState.configured = false) := by
  refine ⟨fun failed => ⟨{ quietState with engine := { quietState.engine with
    context := { PositionContext.empty with readFailed := failed } } }, rfl, by decide⟩, by decide, by decide,
    by decide, by decide⟩

/-- A group that has been repaired: its first member QUARANTINED, concealed, lost, repaired or whole. -/
def repairedState (fs : FrameState) (ext : Extent) (table : List ConcealEntry) : State :=
  let s := (withGroup (groupIn .restore .reconstructing) .arriving []).putFrame 5 (entryIn fs (some 0) ext)
  { s with conceal := { table := table, work := [] } }

/-- The entry that conceals slot 5's first position by fill. -/
def fillEntry : ConcealEntry :=
  { target := 5, range := { first := 0, count := 1 }, source := .fill, checkOk := true }

theorem witness_RestoredGroupRetires :
    -- whole, concealed, lost and QUARANTINED: INTACT, PATCHED, FAILED and FAILED
    (∀ s ∈ [repairedState .arriving [] [], repairedState .arriving firstDamaged [fillEntry],
        repairedState .arriving firstDamaged [], repairedState .quarantined [] []],
      s.configured = true ∧ s.group 0 = some (groupIn .restore .reconstructing) ∧
      (∀ m ∈ (groupIn .restore .reconstructing).members, (s.frame m.slot).parityOk = true) ∧
      ∀ t ∈ s.agenda, t.presents = false) ∧
    ((groupIn .restore .reconstructing).members.map (·.slot)).Nodup ∧
    [repairedState .arriving [] [], repairedState .arriving firstDamaged [fillEntry],
        repairedState .arriving firstDamaged [], repairedState .quarantined [] []].map
      (fun s => ((s.retire 0).group 0).bind (·.outcome)) =
      [some .intact, some .patched, some .failed, some .failed] := by decide

/-! ## Witnesses: concealment -/

/-- A group with its first member damaged, under a policy; slot 4 holds the frame before its first. -/
def concealingState (policy : Policy) (fs : FrameState) : State :=
  let grp := { groupIn .restore .reconstructing with terms := some { testTerms with policy := policy } }
  ((withGroup grp .arriving []).putFrame 5 (entryIn fs (some 0) firstDamaged)).putFrame 4
    { entryIn .verified none [] with frameNumber := some 999 }

theorem witness_ConcealmentIsDecided :
    (∀ policy ∈ [Policy.holdPrevious, .fill, .poison],
      (concealingState policy .arriving).configured = true ∧
      ((concealingState policy .arriving).group 0).bind (·.terms) = some { testTerms with policy := policy }) ∧
    (let s := concealingState .holdPrevious .arriving
     Table.wf s.map.entries = true ∧ (∀ e ∈ s.map.entries, e.2.parityOk = true) ∧
       4 < (s.control.config.map (·.slotCount)).getD 0 ∧ (s.frame 4).channel = some 0 ∧
       (s.frame 4).kind = some .data ∧ (s.frame 4).frameNumber = some (1000 - BitVec.ofNat 32 1) ∧
       (s.frame 4).state = .verified ∧ 1 ≤ testTerms.reach) ∧
    (let s := concealingState .fill .arriving
     (groupIn .restore .reconstructing).members[0]? = some (memberAt 5 .data) ∧ (s.frame 5).parityOk = true ∧
       (s.frame 5).state ≠ .quarantined ∧ (s.frame 5).extent.length ≤ 64 - s.conceal.table.length ∧
       ({ s with conceal := { s.conceal with table := List.replicate 64 fillEntry } } : State).conceal.table.length =
         64) ∧
    ((concealingState .fill .quarantined).frame 5).state = .quarantined := by decide

/-- Slot 5 serves slots 3 and 4. -/
def servingTwo : State :=
  { serving.putFrame 3 (entryIn .arriving (some 0) firstDamaged) with
    conceal := { serving.conceal with table := serving.conceal.table ++
      [{ target := 3, range := { first := 2, count := 1 }, source := .slot 5, checkOk := true }] } }

theorem witness_EndedConcealmentsLeaveTheTable_two :
    [3, 4].Pairwise (· < ·) ∧ (∀ k, k ∈ [3, 4] ↔ servingTwo.WithdrawnBy [5] k) ∧ servingTwo.RingRoomFor 2 ∧
    (∀ e ∈ servingTwo.conceal.table, e.checkOk = true) ∧
    ∀ k ∈ [3, 4], (servingTwo.frame k).parityOk = true := by
  refine ⟨by decide, fun k => ?_, ⟨Or.inl rfl, testConfig, rfl, by decide⟩, by decide, by decide⟩
  simp [State.WithdrawnBy, servingTwo, serving, eq_comm]
  omega

theorem witness_EndedConcealmentsLeaveTheTable :
    (∀ e ∈ serving.conceal.table, e.checkOk = true) ∧
    (∀ k, serving.WithdrawnBy [5] k → (serving.frame k).parityOk = true) ∧
    (∀ j, serving.WithdrawnBy [5] j ↔ j = 4) ∧ serving.RingRoom ∧ (serving.frame 4).state = .concealed ∧
    (let s := serving.strike (.conceal 0)
     s.control.part = .configured ∧ ∃ e, s.conceal.table = [] ++ e :: [] ∧ e.checkOk = false) := by
  refine ⟨by decide, fun k h => ?_, serving_withdrawn, ⟨Or.inl rfl, testConfig, rfl, by decide⟩, by decide, rfl,
    _, rfl, by decide⟩
  cases (serving_withdrawn k).1 h
  decide

/-! ## Witnesses: the header, reports, CONCEALED tails -/

/-- The header of the tests. -/
def testHeader : Header :=
  { arenaBase := 0x400100000, slotCount := 64, sectors := 8, ringSize := 16, mode := 0, ringInterrupt := true
    containedInterrupt := true, ringBase := 0x200000000, tokenCeiling := 100, refillAmount := 4, refillPeriod := 10
    holdLimit := 2000, wearThreshold := 0, fillPattern := 7 }

theorem witness_HeaderChecksAndFailedLoads_checks :
    testHeader.validate 0 = .ok ∧ ({ testHeader with sectors := 7 } : Header).validate 0 = .badGeometry ∧
    ({ testHeader with sectors := 129 } : Header).validate 0 = .badGeometry ∧
    ({ testHeader with sectors := 128 } : Header).validate 0 = .ok ∧
    ({ testHeader with slotCount := 2049 } : Header).validate 0 = .badGeometry ∧
    ({ testHeader with arenaBase := 0x400100020 } : Header).validate 0 = .badArena ∧
    ({ testHeader with arenaBase := 0 } : Header).validate 0 = .badArena ∧
    ({ testHeader with ringSize := 17 } : Header).validate 0 = .badRing ∧
    ({ testHeader with ringBase := 0xFE00 } : Header).validate 0 = .badRing ∧
    ({ testHeader with ringBase := 0x10000 } : Header).validate 0 = .ok ∧
    ({ testHeader with ringBase := 0x400100000 } : Header).validate 0 = .badRing ∧
    ({ testHeader with mode := 2 } : Header).validate 0 = .badField ∧
    ({ testHeader with refillAmount := 4097 } : Header).validate 0 = .badField ∧
    ({ testHeader with holdLimit := 0 } : Header).validate 0 = .badField := by decide +kernel

/-- The header's beats. -/
def headerBeats : List Beat :=
  [packFields [(0, 8, 0x400100000), (8, 2, 64), (10, 2, 8), (12, 2, 16), (14, 1, 0), (15, 1, 3), (16, 8, 0x200000000),
     (24, 2, 100), (26, 2, 4), (28, 2, 10), (30, 2, 2000)], 0, 7, 0, 0, 0, 0, 0]

/-- A part waiting for its header. -/
def headerOut (s : State) (discarded : Bool) : State :=
  withTag { s with control := { s.control with loadPending := some discarded } } .header .read

theorem test_header_is_read : Header.ofBeats headerBeats = testHeader ∧
    testHeader.configuration = testConfig := by decide +kernel
theorem witness_GoodHeaderConfigures :
    let s := headerOut State.reset false
    s.agenda = [] ∧ s.tagRef 3 = some .header ∧ s.control.loadPending = some false ∧
    (∀ c : Fin 8, (s.channel c).state = .disabled) ∧ s.control.part = .blank ∧ s.holds = [] ∧
    (headerOut quietState false).control.part = .configured ∧
    (Header.ofBeats headerBeats).validate s.controlBase = .ok := by decide +kernel
theorem witness_HeaderChecksAndFailedLoads :
    (headerOut quietState true).control.loadPending = some true ∧
    (headerOut faultedState false).control.part = .faulted ∧
    (headerOut (withChannel quietState (channelIn .active .none)) false).control.part = .configured ∧
    (∃ c : Fin 8, ((headerOut (withChannel quietState (channelIn .active .none)) false).channel c).state ≠
      .disabled) ∧
    (headerOut State.reset false).tagRef 3 = some .header ∧
    (Header.ofBeats [0, 0, 0, 0, 0, 0, 0, 0]).validate (headerOut State.reset false).controlBase =
      .badGeometry := by decide +kernel

theorem witness_GoodHeaderConfigures_holds :
    let s := headerOut { holding quietState [heldRead 5000, { heldRead 5000 with tag := 10 }] with
      port := { quietState.port with accepted := [(9, heldEntryOf), (10, { heldEntryOf with seq := 1 })] } } false
    s.control.part = .configured ∧ s.holds.length ≤ 16 ∧ s.holds.map (·.tag) = [9, 10] ∧
    s.accepted 9 = some heldEntryOf ∧ s.accepted 10 = some { heldEntryOf with seq := 1 } ∧
    heldEntryOf.triggers = [] ∧ heldEntryOf.seq < 1 := by decide

/-- A ring with one free entry too few. -/
def fullRing : State := { ringState with control := { ringState.control with writeIndex := 15 } }

theorem witness_ReportIsPostedOrDiscarded :
    State.reset.control.part = .blank ∧ quietState.control.part = .configured ∧
    quietState.control.config = some testConfig ∧ faultedState.control.part = .faulted ∧
    (fullRing.control.writeIndex + fullRing.control.posts.length + testConfig.ringSize - fullRing.control.taken) %
      testConfig.ringSize = testConfig.ringSize - 1 ∧
    (ringState.control.writeIndex + ringState.control.posts.length + testConfig.ringSize - ringState.control.taken) %
      testConfig.ringSize ≠ testConfig.ringSize - 1 ∧
    quietState.control.reportOut = false := by decide

/-- A state whose report write is out. -/
def reportOut : State :=
  withTag { quietState with control := { quietState.control with
    posts := [.signal 0 77 1000, .signal 0 78 1004], reportOut := true } } (.report 0) .write

theorem witness_ReportAnswerAdvancesTheIndex :
    reportOut.agenda = [] ∧ reportOut.tagRef 3 = some (.report reportOut.control.ringEra) ∧
    reportOut.control.posts = .signal 0 77 1000 :: [.signal 0 78 1004] ∧
    reportOut.control.config = some testConfig ∧
    (withTag quietState (.report 7) .write).tagRef 3 = some (.report 7) ∧ 7 ≠ quietState.control.ringEra := by
  decide

/-- A CONCEALING group with one tail to present and one out. -/
def tailWork : TailWork :=
  { group := 0, serial := 0, pending := [{ slot := 5, position := 0, frameNumber := 1000 }], outstanding := 1 }

/-- A part with that work. -/
def tailState : State :=
  { withGroup (groupIn .restore .concealing) .arriving firstDamaged with
    conceal := { table := [], work := [tailWork] } }

theorem witness_ConcealedTailsArePresentedAndAnswered :
    (let s := withTag tailState (.concealedTail 0 0 0 77 5 1 0) .write
     s.agenda = [] ∧ s.tagRef 3 = some (.concealedTail 0 tailWork.serial 0 77 5 1 s.control.era) ∧
       s.control.part = .configured ∧ s.conceal.work = [tailWork] ∧ tailWork.group = 0 ∧ tailWork.pending ≠ []) ∧
    (tailState.control.config = some testConfig ∧ tailState.fenced 5 = false ∧
      tailState.group tailWork.group = some (groupIn .restore .concealing)) := by decide

/-- A part with two groups' tails waiting, a write fenced to the slot of the first group's head. -/
def twoTails : State :=
  { tailState with
    conceal := { table := [], work := [{ tailWork with group := 1, pending :=
      [{ slot := 9, position := 0, frameNumber := 500 }] }, tailWork] }
    port := { tailState.port with accepted := [(9, { heldEntryOf with
      kind := .write, disposition := .waitingIssue, fence := some 9 })] } }

/-- A part whose last CONCEALED tail is out. -/
def lastTail : State :=
  withTag { tailState with conceal := { table := [fillEntry], work := [{ tailWork with pending := [] }] } }
    (.concealedTail 0 0 0 77 5 0 0) .write

theorem witness_ConcealedTailsArePresentedAndAnswered_lists :
    (twoTails.agenda = [] ∧ twoTails.control.part = .configured ∧ twoTails.control.config = some testConfig ∧
      (∃ w, twoTails.conceal.work = [w] ++ tailWork :: [] ∧
        ∀ q others, w.pending = q :: others → twoTails.fenced q.slot = true) ∧
      tailWork.pending = { slot := 5, position := 0, frameNumber := 1000 } :: [] ∧ twoTails.fenced 5 = false ∧
      twoTails.group tailWork.group = some (groupIn .restore .concealing)) ∧
    (lastTail.agenda = [] ∧
      lastTail.tagRef 3 = some (.concealedTail 0 0 0 77 5 0 lastTail.control.era) ∧
      lastTail.control.part = .configured ∧ lastTail.group 0 = some (groupIn .restore .concealing) ∧
      (∀ w ∈ lastTail.conceal.work, w.group = 0 → w.serial = 0 ∧ w.pending = [] ∧ w.outstanding ≤ 1) ∧
      (∀ m ∈ (groupIn .restore .concealing).members, (lastTail.frame m.slot).parityOk = true) ∧
      ((groupIn .restore .concealing).members.map (·.slot)).Nodup ∧
      ∀ h ∈ lastTail.holds, h.waitsOn ≠ .group 0) ∧
    (quietState.agenda = [] ∧ quietState.conceal.work = []) := by
  refine ⟨⟨rfl, rfl, rfl, ⟨_, rfl, fun q others h => ?_⟩, rfl, by decide, by decide⟩, by decide, rfl, rfl⟩
  cases h
  decide

/-! ## Witnesses: the Repair Engine -/

/-- The engine rebuilding position 0 of group 0 with a request due. -/
def engineState (op : EngineOp) (tokens : Nat) : State :=
  { withGroup (groupIn .restore .reconstructing) .arriving firstDamaged with
    engine := { engineAt .rebuild 0 [] with
      tokens := tokens, context := { PositionContext.empty with due := [{ member := 1, op := op }] } } }

theorem witness_EngineIssuesTheNextRequest :
    let s := engineState .readSector 1
    s.agenda = [] ∧ s.engine.context.due = { member := 1, op := .readSector } :: [] ∧
    s.engine.service = some (0, .rebuild) ∧ s.engine.cursor = some 0 ∧ s.control.config = some testConfig ∧
    s.group 0 = some (groupIn .restore .reconstructing) ∧
    (groupIn .restore .reconstructing).members[1]? = some (memberAt 6 .data) ∧
    (s.engine.state = .running ∧ s.engine.inFlight.length < 8 ∧ 1 ≤ s.engine.tokens ∧ s.fenced 6 = false) ∧
    (engineState .writeTail 0).engine.tokens = 0 := by decide

/-- A job of a group. -/
def jobOf (g : Nat) (promoted : Bool) : Job := { group := g, kind := .seal, promoted := promoted }

theorem witness_JobsAreQueuedPromotedAndTaken :
    (∀ j ∈ [jobOf 3 true], j.group = 3 → j.promoted = true) ∧
    ((jobOf 3 false).group = 3 ∧ (jobOf 3 false).promoted = false ∧
      (∀ i ∈ [jobOf 1 true], i.promoted = true ∧ i.group ≠ 3) ∧
      (∀ i ∈ [jobOf 2 false] ++ [jobOf 4 false], i.promoted = false ∧ i.group ≠ 3) ∧
      promoteJob 3 ([jobOf 1 true] ++ [jobOf 2 false] ++ jobOf 3 false :: [jobOf 4 false]) =
        [jobOf 1 true, jobOf 3 true, jobOf 2 false, jobOf 4 false]) ∧
    (let s := { quietState with engine := { quietState.engine with queue := [jobOf 0 false] } }
     s.aborting = false ∧ s.engine.state = .idle ∧ s.engine.queue = jobOf 0 false :: []) ∧
    (quietState.aborting = false ∧ quietState.engine.queue = []) ∧
    (let s := { quietState with agenda := [.abandoned 0, .abandon 1, .disableTest 0] }
     s.agenda = [.abandoned 0] ++ .abandon 1 :: [.disableTest 0] ∧ s.aborting = true) := by decide

/-- The engine at position 0 of a job of a group of D = 2, P = 1, with the extents of its members. -/
def positionState (kind : JobKind) (state : GroupState) (exts : List Extent) (context : PositionContext) : State :=
  let s := withGroup (groupIn .restore state) .arriving []
  let s := ([5, 6, 7].zip exts).foldl (fun s k => s.putFrame k.1 (entryIn .arriving (some 0) k.2)) s
  { s with engine := { engineAt kind 0 [] with context := context } }

theorem witness_SurvivorsAreChosenAndChosenAgain :
    (∀ exts ∈ [[[], [], []], [firstDamaged, [], []], [firstDamaged, firstDamaged, []]],
      let s := positionState .rebuild .reconstructing exts PositionContext.empty
      s.engine.state = .running ∧ s.engine.service = some (0, .rebuild) ∧ s.engine.cursor = some 0 ∧
        s.group 0 = some (groupIn .restore .reconstructing) ∧
        ∀ m ∈ (groupIn .restore .reconstructing).members, (s.frame m.slot).parityOk = true) ∧
    -- undamaged, within parity, beyond parity
    [[[], [], []], [firstDamaged, [], []], [firstDamaged, firstDamaged, []]].map (fun exts =>
      (positionState .rebuild .reconstructing exts PositionContext.empty).damagedSet
        (groupIn .restore .reconstructing) 0) = [[], [0], [0, 1]] ∧
    -- not grown; grown, of which the survivors have been read, or one of them has not
    (∀ m ∈ [0], m ∈ ({ PositionContext.empty with damaged := [0] } : PositionContext).damaged) ∧
    (survivors (groupIn .restore .reconstructing) [0]).filter
      (fun m => (([(1, []), (2, [])] : List (Nat × Sector)).lookup m).isNone) = [] ∧
    (survivors (groupIn .restore .reconstructing) [0]).filter
      (fun m => (([(1, [])] : List (Nat × Sector)).lookup m).isNone) ≠ [] := by decide

/-- The engine at the last position of a job of a group of D = 2, P = 1, with the extents of its members. -/
def lastPosition (kind : JobKind) (state : GroupState) (exts : List Extent) : State :=
  let s := withGroup (groupIn .restore state) .arriving []
  let s := ([5, 6, 7].zip exts).foldl (fun s k => s.putFrame k.1 (entryIn .arriving (some 0) k.2)) s
  { s with engine := engineAt kind 7 [] }

theorem witness_SurvivorsAreChosenAndChosenAgain_end :
    -- no damage, damage in parity alone, damage in data
    ∀ exts ∈ [[[], [], []], [[], [], firstDamaged], [firstDamaged, [], []]],
      let s := lastPosition .rebuild .reconstructing exts
      s.engine.state = .running ∧ s.engine.service = some (0, .rebuild) ∧ s.engine.cursor = some 7 ∧
      s.group 0 = some (groupIn .restore .reconstructing) ∧ s.sectors ≤ 7 + 1 ∧
      (∀ m ∈ (groupIn .restore .reconstructing).members, (s.frame m.slot).parityOk = true) ∧
      ((∃ m ∈ (groupIn .restore .reconstructing).members, m.kind = .data ∧ s.extentOf m.slot ≠ []) ↔
        exts = [firstDamaged, [], []]) := by decide

theorem witness_AuditedPositionIsJudged_end :
    ∀ exts ∈ [[[], [], []], [[], [], firstDamaged]],
      let s := lastPosition .audit .auditing exts
      s.engine.state = .running ∧ s.engine.service = some (0, .audit) ∧ s.engine.cursor = some 7 ∧
      s.group 0 = some (groupIn .restore .auditing) ∧ s.sectors ≤ 7 + 1 ∧
      (∀ m ∈ (groupIn .restore .auditing).members, (s.frame m.slot).parityOk = true) ∧
      ((∃ m ∈ (groupIn .restore .auditing).members, s.extentOf m.slot ≠ []) ↔
        exts = [[], [], firstDamaged]) := by decide

theorem witness_JobsAreQueuedPromotedAndTaken_advance :
    let s := positionState .seal .sealing [[], [], []] PositionContext.empty
    s.engine.state = .running ∧ s.engine.service = some (0, .seal) ∧ s.engine.cursor = some 0 ∧
    0 + 1 < s.sectors := by decide

theorem witness_AuditedPositionIsJudged :
    (∀ exts ∈ [[[], [], []], [firstDamaged, [], []]],
      let s := positionState .audit .auditing exts PositionContext.empty
      s.engine.state = .running ∧ s.engine.service = some (0, .audit) ∧ s.engine.cursor = some 0 ∧
        s.group 0 = some (groupIn .restore .auditing) ∧
        ∀ m ∈ (groupIn .restore .auditing).members, (s.frame m.slot).parityOk = true) ∧
    (positionState .audit .auditing [[], [], []] PositionContext.empty).damagedSet (groupIn .restore .auditing) 0 =
      [] ∧
    (positionState .audit .auditing [firstDamaged, [], []] PositionContext.empty).damagedSet
      (groupIn .restore .auditing) 0 ≠ [] ∧
    -- clean, located and unlocated columns of P = 2
    auditColumns 2 2 [[0, 0]] = .clean ∧ auditColumns 2 2 [[0, 0], [5, 0]] = .located 2 ∧
    auditColumns 2 2 [[5, 5], [5, 0]] = .unlocated ∧ auditColumns 2 1 [[5]] = .unlocated ∧
    (positionState .audit .auditing [[], [], []]
      { PositionContext.empty with readFailed := true }).engine.context.readFailed = true := by decide +kernel

theorem witness_RefillRaisesTheTokens :
    quietState.Sound ∧ quietState.control.config = some testConfig ∧ quietState.engine.nextRefill = some 10 ∧
    quietState.time < 10 ∧ (10 ≤ ({ quietState with time := 10 } : State).time) ∧
    ({ quietState with time := 10 } : State).Sound ∧ quietState.engine.context.due = [] :=
  ⟨quietState_sound, rfl, rfl, by decide, by decide,
    ⟨⟨rfl, rfl, rfl, ⟨rfl, by decide⟩, by decide, by decide, by decide, by decide, fun _ => rfl, fun _ => rfl⟩,
      rfl, rfl⟩, rfl⟩

/-- The engine with one request almost answered and another in flight. -/
def twoInFlight (kind : JobKind) (r : EngineRequest) (ref : OwnerRef) (rk : RequestKind) : State :=
  withTag { withGroup (groupIn .restore .reconstructing) .arriving firstDamaged with
    engine := engineAt kind 0 [r, readWaiting] } ref rk

theorem witness_SectorReadIsReceivedOrDamages :
    let s := twoInFlight .rebuild readAlmostDone (.engineRead 0 7) .read
    s.agenda = [] ∧ s.tagRef 3 = some (.engineRead readAlmostDone.id 7) ∧ s.control.part = .configured ∧
    s.engine.inFlight.find? (fun q => q.id == readAlmostDone.id) = some readAlmostDone ∧
    readAlmostDone.answered.length = 7 ∧ readAlmostDone.op = .readSector ∧ s.engine.state = .running ∧
    s.engine.service = some (0, .rebuild) ∧ s.engine.cursor = some 0 ∧
    s.group 0 = some (groupIn .restore .reconstructing) ∧
    (groupIn .restore .reconstructing).members[readAlmostDone.member]? = some (memberAt 5 .data) ∧
    (s.frame 5).parityOk = true ∧ (s.frame 5).state ≠ .quarantined ∧
    s.engine.inFlight.filter (fun q => q.id != readAlmostDone.id) ≠ [] ∧
    (twoInFlight .seal readAlmostDone (.engineRead 0 7) .read).engine.service = some (0, .seal) := by decide

/-- A sector request six of whose bursts are answered. -/
def sixAnswered (op : EngineOp) : EngineRequest :=
  { id := 0, member := 0, op := op, answered := (List.range 6).map (fun k => (k, [])), failed := false }

theorem witness_SectorReadIsReceivedOrDamages_burst :
    (∀ p ∈ [(sixAnswered .readSector, OwnerRef.engineRead 0 6), (sixAnswered (.writeSector []), .engineWrite 0 6)],
      let s := withTag { withGroup (groupIn .restore .reconstructing) .arriving firstDamaged with
        engine := engineAt .rebuild 0 [p.1, readWaiting] } p.2 .read
      s.agenda = [] ∧ s.engine.inFlight.find? (fun q => q.id == p.1.id) = some p.1 ∧ p.1.answered.length < 7 ∧
      s.tagRef 3 = some p.2) ∧
    (readAlmostDone.answered.lookup 0 = some [] ∧ readAlmostDone.answered.lookup 6 = some []) := by decide

theorem witness_SectorReadIsReceivedOrDamages_due :
    ∀ due ∈ [[], [dueRead 1]], ∀ kind ∈ [JobKind.seal, .audit, .rebuild],
      let s := withTag { withGroup (groupIn .restore .reconstructing) .arriving firstDamaged with
        engine := { engineAt kind 0 [readAlmostDone] with
          context := { PositionContext.empty with due := due } } } (.engineRead 0 7) .read
      s.agenda = [] ∧ s.tagRef 3 = some (.engineRead readAlmostDone.id 7) ∧
      s.engine.inFlight.find? (fun q => q.id == readAlmostDone.id) = some readAlmostDone ∧
      s.engine.service = some (0, kind) ∧ s.engine.cursor = some 0 ∧
      s.engine.inFlight.filter (fun q => q.id != readAlmostDone.id) = [] ∧ s.engine.context.due = due ∧
      s.engine.context.writing = false := by decide

/-- A sector write of member 0, seven bursts answered. -/
def writeAlmostDone : EngineRequest := { readAlmostDone with op := .writeSector [] }

theorem witness_RebuiltSectorAndItsTailAreAnswered :
    let s := twoInFlight .rebuild writeAlmostDone (.engineWrite 0 7) .write
    s.agenda = [] ∧ s.tagRef 3 = some (.engineWrite writeAlmostDone.id 7) ∧
    s.engine.inFlight.find? (fun q => q.id == writeAlmostDone.id) = some writeAlmostDone ∧
    writeAlmostDone.answered.length = 7 ∧ writeAlmostDone.op = .writeSector [] ∧
    s.engine.service = some (0, .rebuild) ∧ s.engine.cursor = some 0 ∧
    s.group 0 = some (groupIn .restore .reconstructing) ∧ (s.frame 5).parityOk = true ∧
    (s.frame 5).state ≠ .quarantined ∧
    s.engine.inFlight.filter (fun q => q.id != writeAlmostDone.id) ≠ [] := by decide

/-- A tail write of member 0. -/
def tailWrite : EngineRequest := { id := 0, member := 0, op := .writeTail, answered := [], failed := false }

theorem witness_RebuiltSectorAndItsTailAreAnswered_tail :
    let s := twoInFlight .rebuild tailWrite (.engineTail 0) .write
    s.agenda = [] ∧ s.tagRef 3 = some (.engineTail tailWrite.id) ∧ s.control.part = .configured ∧
    s.engine.inFlight.find? (fun q => q.id == tailWrite.id) = some tailWrite ∧ tailWrite.answered = [] ∧
    tailWrite.failed = false ∧ tailWrite.op = .writeTail ∧ s.engine.state = .running ∧
    s.engine.service = some (0, .rebuild) ∧ s.engine.cursor = some 0 ∧
    s.group 0 = some (groupIn .restore .reconstructing) ∧
    (groupIn .restore .reconstructing).members[tailWrite.member]? = some (memberAt 5 .data) ∧
    s.engine.inFlight.filter (fun q => q.id != tailWrite.id) ≠ [] := by decide

theorem witness_RebuiltSectorAndItsTailAreAnswered_insert :
    -- behind every request due, and between two of them
    (∀ d ∈ [dueRead 0, dueRead 1], d.member ≤ 1) ∧
    insertTail 1 [dueRead 0, dueRead 1, dueRead 2] =
      [dueRead 0, dueRead 1, { member := 1, op := .writeTail }, dueRead 2] ∧
    insertTail 2 [dueRead 0, dueRead 1] = [dueRead 0, dueRead 1, { member := 2, op := .writeTail }] := by decide

/-- The engine at position 0 with one request in flight, the position's writes under way. -/
def oneInFlight (kind : JobKind) (grp : Group) (fs : FrameState) (ext : Extent) (r : EngineRequest)
    (ref : OwnerRef) : State :=
  withTag { withGroup grp fs ext with
    engine := { engineAt kind 0 [r] with context := { PositionContext.empty with writing := true } } } ref .write

/-- The write of the parity sector of a SEAL, seven bursts answered. -/
def parityAlmostDone : EngineRequest := { writeAlmostDone with member := 2 }

theorem witness_RebuiltSectorAndItsTailAreAnswered_seal :
    (let s := withTag { withGroup (groupIn .record .sealing) .filling [] with
       engine := engineAt .seal 0 [parityAlmostDone, readWaiting] } (.engineWrite 0 7) .write
     s.agenda = [] ∧ s.tagRef 3 = some (.engineWrite parityAlmostDone.id 7) ∧ s.control.part = .configured ∧
       s.engine.inFlight.find? (fun q => q.id == parityAlmostDone.id) = some parityAlmostDone ∧
       parityAlmostDone.answered.length = 7 ∧ parityAlmostDone.op = .writeSector [] ∧
       s.engine.state = .running ∧ s.engine.service = some (0, .seal) ∧ s.engine.cursor = some 0 ∧
       s.group 0 = some (groupIn .record .sealing) ∧
       (groupIn .record .sealing).members[parityAlmostDone.member]? = some (memberAt 7 (.parity 0)) ∧
       s.engine.inFlight.filter (fun q => q.id != parityAlmostDone.id) ≠ []) ∧
    (let s := oneInFlight .seal (groupIn .record .sealing) .filling [] parityAlmostDone (.engineWrite 0 7)
     s.agenda = [] ∧ s.tagRef 3 = some (.engineWrite parityAlmostDone.id 7) ∧ s.control.part = .configured ∧
       s.engine.inFlight.find? (fun q => q.id == parityAlmostDone.id) = some parityAlmostDone ∧
       s.engine.service = some (0, .seal) ∧ s.engine.cursor = some 0 ∧
       s.group 0 = some (groupIn .record .sealing) ∧
       s.engine.inFlight.filter (fun q => q.id != parityAlmostDone.id) = [] ∧ s.engine.context.due = [] ∧
       s.engine.context.writing = true ∧ 0 + 1 < s.sectors) := by decide

/-- Two positions damaged, in the first member alone. -/
def twoDamaged : Extent := [{ first := 0, count := 2 }]

theorem witness_RebuiltSectorAndItsTailAreAnswered_last :
    ∀ p ∈ [(tailWrite, OwnerRef.engineTail 0), (writeAlmostDone, .engineWrite 0 7)],
      let grp := groupIn .restore .reconstructing
      let s := (oneInFlight .rebuild grp .arriving [] p.1 p.2).putFrame 5 (entryIn .arriving (some 0) twoDamaged)
      s.agenda = [] ∧ s.tagRef 3 = some p.2 ∧ s.control.part = .configured ∧
      s.engine.inFlight.find? (fun q => q.id == p.1.id) = some p.1 ∧ s.engine.state = .running ∧
      s.engine.service = some (0, .rebuild) ∧ s.engine.cursor = some 0 ∧ s.group 0 = some grp ∧
      grp.members[p.1.member]? = some (memberAt 5 .data) ∧
      s.engine.inFlight.filter (fun q => q.id != p.1.id) = [] ∧ s.engine.context.due = [] ∧
      s.engine.context.writing = true ∧ 0 + 1 < s.sectors ∧
      (∀ n ∈ grp.members, (s.frame n.slot).parityOk = true) ∧ (∀ h ∈ s.holds, h.waitsOn ≠ .group 0) ∧
      s.damagedSet grp (0 + 1) = [0] ∧ [0].length ≤ grp.parityCount := by decide

/-- The last tail of a position with nothing else due, and a sector write OKAY as the last in flight. -/
theorem witness_RebuiltSectorAndItsTailAreAnswered_alone :
    let s := oneInFlight .rebuild (groupIn .restore .reconstructing) .arriving firstDamaged writeAlmostDone
      (.engineWrite 0 7)
    s.engine.inFlight.filter (fun q => q.id != writeAlmostDone.id) = [] ∧ s.engine.context.due = [] ∧
    writeAlmostDone.failed = false ∧ (s.frame 5).parityOk = true ∧ (s.frame 5).state ≠ .quarantined := by decide

/-! ## Witnesses: deadlines, searches, the ends of a clear and a fault entry -/

theorem witness_HeldRequestsExpire :
    (holding quietState [heldRead 0]).Sound ∧ (holding quietState [heldRead 0]).holds = [heldRead 0] ∧
    (holding quietState [heldRead 0]).accepted 9 = some heldEntryOf ∧
    (heldRead 0).deadline ≤ (holding quietState [heldRead 0]).time ∧
    (holding quietState [heldRead 1]).time < (heldRead 1).deadline :=
  ⟨⟨⟨rfl, rfl, rfl, ⟨rfl, by decide⟩, by decide, by decide, by decide, by decide, fun _ => rfl, fun _ => rfl⟩,
    rfl, rfl⟩, rfl, rfl, by decide, by decide⟩

theorem witness_HeldRequestsExpire_several :
    let later : Held := { heldRead 5 with tag := 11, slot := 6 }
    let s := holding quietState [heldRead 0, later, { heldFollower 0 with tag := 12 }]
    s.Sound ∧ (∀ h ∈ s.holds, s.time < h.deadline → ∀ e ∈ s.holds, e.deadline ≤ s.time → h.waitsOn ≠ .tag e.tag) ∧
    s.holds.filter (fun h => decide (s.time < h.deadline)) = [later] ∧ s.RingRoom :=
  ⟨⟨⟨rfl, rfl, rfl, ⟨rfl, by decide⟩, by decide, by decide, by decide, by decide, fun _ => rfl, fun _ => rfl⟩,
    rfl, rfl⟩, by decide, by decide, Or.inl rfl, testConfig, rfl, by decide⟩

/-- A GATHERING group at its deadline, and an AWAITING_REREAD group at its own. -/
def gatheringDue : Group := { groupIn .restore .gathering with gatherDeadline := some 0 }
/-- The second. -/
def rereadingDue : Group :=
  { groupIn .restore .awaitingReread with
    rereadDeadline := some 0, rounds := 1
    members := [{ memberAt 5 .data with requested := [0, 1], outstanding := 2 }, memberAt 6 .data,
      memberAt 7 (.parity 0)] }

/-- A group's state with the engine at work elsewhere. -/
def busyElsewhere (grp : Group) : State :=
  { withGroup grp .arriving [] with engine := { engineAt .seal 0 [] with service := some (9, .seal) } }

theorem witness_DeadlinesCloseTheGatheringAndTheRound :
    let s := busyElsewhere gatheringDue
    s.agenda = [] ∧ s.control.part = .configured ∧ s.group 0 = some gatheringDue ∧
    gatheringDue.state = .gathering ∧ gatheringDue.gatherDeadline = some 0 ∧ 0 ≤ s.time ∧
    gatheringDue.terms = some testTerms ∧ testTerms.audit = true ∧ 1 ≤ gatheringDue.parityCount ∧
    gatheringDue.rounds = 0 ∧ s.engine.state = .running ∧
    (s.control.config.map (·.wearThreshold)).getD 0 = 0 ∧
    (∀ m ∈ gatheringDue.members, (s.frame m.slot).parityOk = true ∧ (s.frame m.slot).state = .arriving) ∧
    (gatheringDue.members.map (·.slot)).Nodup := by decide
theorem witness_DeadlinesCloseTheGatheringAndTheRound_reread :
    let s := busyElsewhere rereadingDue
    s.agenda = [] ∧ s.control.part = .configured ∧ s.group 0 = some rereadingDue ∧
    rereadingDue.state = .awaitingReread ∧ rereadingDue.rereadDeadline = some 0 ∧ 0 ≤ s.time ∧
    rereadingDue.terms = some testTerms ∧ 1 ≤ rereadingDue.parityCount ∧ 1 ≤ rereadingDue.rounds ∧
    s.engine.state = .running ∧
    (∀ m ∈ rereadingDue.members, (s.frame m.slot).parityOk = true ∧ (s.frame m.slot).state = .arriving) ∧
    (rereadingDue.members.map (·.slot)).Nodup ∧
    (∀ m ∈ rereadingDue.members, ∀ q ∈ m.requested, q < s.sectors) := by decide

/-- A group at its CHECK: rounds used, AUDIT, and what the wear test and the closing classification look at. -/
def checkedGroup (rounds : Nat) (audit : Bool) : Group :=
  { groupIn .restore .gathering with
    rounds := rounds, terms := some { testTerms with audit := audit }
    members := [{ memberAt 5 .data with correctedTotal := 9, firstPass := [0, 1] }, memberAt 6 .data,
      memberAt 7 (.parity 0)] }

/-- A part with that group, the extents of its members and a wear threshold of 8. -/
def checkedState (rounds : Nat) (audit : Bool) (exts : List Extent) : State :=
  let s := withGroup (checkedGroup rounds audit) .arriving []
  let s := ([5, 6, 7].zip exts).foldl (fun s k => s.putFrame k.1 (entryIn .arriving (some 0) k.2)) s
  { s with control := { s.control with config := some { testConfig with wearThreshold := 8 } } }

theorem witness_DeadlinesCloseTheGatheringAndTheRound_check :
    (∀ rounds ∈ [0, 1], ∀ audit ∈ [true, false],
      ∀ exts ∈ [[[], [], []], [firstDamaged, [], []], [firstDamaged, firstDamaged, []]],
        let s := checkedState rounds audit exts
        s.configured = true ∧ s.group 0 = some (checkedGroup rounds audit) ∧
        (checkedGroup rounds audit).terms = some { testTerms with audit := audit } ∧
        (∀ m ∈ (checkedGroup rounds audit).members, (s.frame m.slot).parityOk = true) ∧
        ((checkedGroup rounds audit).members.map (·.slot)).Nodup ∧ s.agenda = []) ∧
    -- beyond parity with budget left, beyond parity without, damage within parity, no damage
    (checkedState 0 false [firstDamaged, firstDamaged, []]).beyondParity (checkedGroup 0 false) = [0] ∧
    testTerms.rereadBudget = 1 ∧
    (checkedState 0 false [firstDamaged, [], []]).beyondParity (checkedGroup 0 false) = [] ∧
    (checkedState 0 false [[], [], []]).extentOf 5 = [] ∧
    -- a worn member
    8 < (9 : Nat) ∧ ((checkedState 0 false [[], [], []]).frame 5).worn = false := by decide

theorem witness_DeadlinesCloseTheGatheringAndTheRound_room :
    (checkedState 0 true [firstDamaged, firstDamaged, []]).RingRoomFor 3 :=
  ⟨Or.inl rfl, { testConfig with wearThreshold := 8 }, rfl, by decide⟩

/-- A search for slot 5. -/
def slotSearch : Search := { slot := 5, next := 0, noted := [] }

/-- A state with that search running. -/
def searching (s : State) : State :=
  { s with map := { s.map with pendingSearch := [5], search := some slotSearch } }

/-- A search that ends here, with no concealment in the way. -/
theorem searchEnds_of (s : State) (q last : Search)
    (h : s.agenda = [] ∧ s.control.part = .configured ∧ s.map.search = some q ∧ s.conceal.table = [] ∧
      s.conceal.work = []) (l : s.LastSearchStep q last) : s.SearchEnds q last where
  idle := h.1
  configured := h.2.1
  running := h.2.2.1
  last := l
  concealOk := by simp [h.2.2.2.1]
  targetsOk := by
    rintro k ⟨_, e, he, _⟩
    simp [h.2.2.2.1] at he
  noTails := h.2.2.2.2

/-- A QUARANTINED slot 5 and the search for it, no group in the table. -/
def orphanSearch : State := searching (withEntry 5 (entryIn .quarantined none []))

/-- The same with a group that lists slot 5, and one that does not. -/
def groupSearch (grp : Group) : State :=
  searching ((quietState.putGroup 0 grp).putFrame 5 (entryIn .quarantined none []))

/-- A group of other slots. -/
def otherGroup : Group := { groupIn .record .collecting with members := [memberAt 8 .data, memberAt 9 .data] }

/-- The step at the one group of `groupSearch` is the last. -/
theorem groupSearch_ends (grp : Group) (ok : grp.checkOk = true) :
    (groupSearch grp).SearchEnds slotSearch (slotSearch.note 0 grp) := by
  have entries : (groupSearch grp).groups.entries = [(0, grp)] := by
    simp [groupSearch, searching, State.putFrame, State.putGroup, quietState, State.reset, Table.put]
    cases grp; simp_all
  refine searchEnds_of _ _ _ ⟨rfl, rfl, rfl, rfl, rfl⟩ (Or.inr ⟨0, grp, ?_, Nat.le_refl 0, ok, ?_, rfl⟩)
  · simp [entries]
  · simp [entries]

theorem witness_SearchOutcomes :
    -- no group, and an occupied entry that does not list the slot
    (orphanSearch.SearchEnds slotSearch slotSearch ∧ orphanSearch.countNoted slotSearch = [] ∧
      ∀ h ∈ orphanSearch.holds, h.waitsOn ≠ .slot slotSearch.slot) ∧
    ((groupSearch otherGroup).SearchEnds slotSearch (slotSearch.note 0 otherGroup) ∧
      (groupSearch otherGroup).countNoted (slotSearch.note 0 otherGroup) = []) ∧
    -- one member: of a RECORD group, and of a GATHERING group
    (∀ grp ∈ [groupIn .record .collecting, groupIn .restore .gathering, groupIn .restore .auditing],
      (groupSearch grp).SearchEnds slotSearch (slotSearch.note 0 grp) ∧
      (groupSearch grp).countNoted (slotSearch.note 0 grp) = [0] ∧ (groupSearch grp).group 0 = some grp ∧
      grp.place slotSearch.slot = some 0 ∧ grp.members[0]? = some (memberAt 5 .data)) := by
  refine ⟨⟨searchEnds_of _ _ _ ⟨rfl, rfl, rfl, rfl, rfl⟩ (Or.inl ⟨rfl, fun _ h => nomatch h⟩), by decide,
    fun _ h => nomatch h⟩, ⟨groupSearch_ends _ rfl, by decide⟩, ?_⟩
  intro grp h
  simp only [List.mem_cons, List.not_mem_nil, or_false] at h
  rcases h with rfl | rfl | rfl <;> exact ⟨groupSearch_ends _ rfl, by decide, by decide, by decide, by decide⟩

/-- A search that has noted one group and meets a second that lists slot 5. -/
def secondNoted : State :=
  let s := groupSearch (groupIn .record .collecting)
  { (s.putGroup 1 (groupIn .record .collecting)) with
    map := { s.map with search := some { slot := 5, next := 1, noted := [(0, 0)] } } }

theorem witness_SearchOutcomes_several :
    let q : Search := { slot := 5, next := 1, noted := [(0, 0)] }
    let last := q.note 1 (groupIn .record .collecting)
    secondNoted.SearchEnds q last ∧ 2 ≤ (secondNoted.countNoted last).length :=
  ⟨searchEnds_of _ _ _ ⟨rfl, rfl, rfl, rfl, rfl⟩ (Or.inr ⟨1, groupIn .record .collecting, by decide, Nat.le_refl 1, rfl,
    by decide, rfl⟩), by decide⟩

/-- A search that meets a sound group that is not the last, listing slot 5 or not. -/
def firstOfTwo (grp : Group) : State := (groupSearch grp).putGroup 3 otherGroup

theorem witness_SearchOutcomes_step :
    ∀ grp ∈ [groupIn .record .collecting, otherGroup],
      (firstOfTwo grp).agenda = [] ∧ (firstOfTwo grp).control.part = .configured ∧
      (firstOfTwo grp).map.search = some slotSearch ∧ slotSearch.next ≤ 0 ∧
      (firstOfTwo grp).group 0 = some grp ∧ grp.checkOk = true ∧ 0 < 3 ∧
      ((firstOfTwo grp).group 3).isSome = true ∧ Table.wf (firstOfTwo grp).groups.entries = true ∧
      ((firstOfTwo grp).searchStep.map.search.map (·.noted)) =
        some (if grp.members.any (fun m => m.slot == 5) then [(0, 0)] else []) := by decide

/-- The search without a member, with a read held on the slot and a follower of the same page. -/
def heldSearch : State :=
  { orphanSearch with
    holds := [{ heldRead 5000 with case := .quarantine, waitsOn := .slot 5, groupAtHold := none },
      heldFollower 5000]
    port := { orphanSearch.port with accepted := [(9, heldEntryOf), (10, { heldEntryOf with seq := 1 })] } }

theorem witness_SearchOutcomes_released :
    heldSearch.SearchEnds slotSearch slotSearch ∧ heldSearch.countNoted slotSearch = [] ∧
    heldSearch.control.config = some testConfig ∧
    heldSearch.holds = [{ heldRead 5000 with case := .quarantine, waitsOn := .slot 5, groupAtHold := none },
      heldFollower 5000] ∧ (heldFollower 5000).waitsOn = .tag 9 ∧
    heldSearch.accepted 9 = some heldEntryOf ∧ heldSearch.accepted 10 = some { heldEntryOf with seq := 1 } ∧
    heldEntryOf.triggers = [] ∧ heldEntryOf.seq < 1 ∧ testConfig.inArena heldEntryOf.addr = true ∧
    (testConfig.resolve heldEntryOf.addr).slot = slotSearch.slot :=
  ⟨searchEnds_of _ _ _ ⟨rfl, rfl, rfl, rfl, rfl⟩ (Or.inl ⟨rfl, fun _ h => nomatch h⟩), by decide, rfl, rfl, rfl, rfl,
    rfl, rfl, by decide, by decide, by decide⟩

/-- A group whose check bits have ceased to agree. -/
def badGroup : Group := { groupIn .restore .gathering with checkOk := false }

theorem witness_FailingGroupEntryFaultsThePart :
    let s := searching { quietState with groups := { entries := [(0, badGroup)], nextSerial := 1 } }
    s.agenda = [] ∧ s.control.part = .configured ∧ s.map.search = some slotSearch ∧ slotSearch.next ≤ 0 ∧
    s.group 0 = some badGroup ∧ badGroup.checkOk = false ∧ Table.wf s.groups.entries = true ∧
    s.engine.state ≠ .quiet ∧ s.holds = [] ∧ ∀ j, slotSearch.next ≤ j → j < 0 → s.group j = none := by
  refine ⟨rfl, rfl, rfl, by decide, rfl, rfl, rfl, by decide, rfl, fun j _ h => absurd h (Nat.not_lt_zero j)⟩

theorem witness_FailingGroupEntryFaultsThePart_holds :
    let s := holding (searching { quietState with groups := { entries := [(0, badGroup)], nextSerial := 1 } })
      [heldRead 5000]
    s.agenda = [] ∧ s.group 0 = some badGroup ∧ s.holds = [heldRead 5000] ∧
    s.refusal 9 = some { tag := 9, status := .poison, beats := [0, 0, 0, 0] } := by decide

/-- A part with a clear under way, the engine quiet. -/
def clearingState (e : EngineState) : State :=
  { quietState with
    engine := { quietState.engine with state := e }
    control := { quietState.control with part := .clearing } }

theorem clearingState_sound (e : EngineState) : (clearingState e).Sound where
  kept := ⟨rfl, rfl, rfl, ⟨rfl, fun _ h => nomatch h⟩, Nat.zero_le _, Nat.zero_le _, Nat.zero_le _,
    Nat.le_refl 100, fun _ => rfl, fun _ => rfl⟩
  irq := rfl
  done := rfl

theorem witness_WarmClearAndFaultEntryEnd_clear :
    (clearingState .quiet).Sound ∧ (clearingState .quiet).control.part = .clearing ∧
    (clearingState .quiet).engine.state = .quiet ∧ (∀ c : Fin 8, ((clearingState .quiet).channel c).fetch = .none) ∧
    (∀ e ∈ (clearingState .quiet).conceal.table, e.checkOk = true) ∧
    (clearingState .quiescing).Sound ∧ (clearingState .quiescing).engine.state ≠ .quiet :=
  ⟨clearingState_sound _, rfl, rfl, by decide, by decide, clearingState_sound _, by decide⟩

/-- A fault entry under way, the engine quiet. -/
def enteringState (e : EngineState) : State :=
  { clearingState e with control := { quietState.control with part := .faulted, entering := true } }

theorem enteringState_sound (e : EngineState) : (enteringState e).Sound where
  kept := ⟨rfl, rfl, rfl, ⟨rfl, fun _ h => nomatch h⟩, Nat.zero_le _, Nat.zero_le _, Nat.zero_le _,
    Nat.le_refl 100, fun _ => rfl, fun _ => rfl⟩
  irq := rfl
  done := rfl

theorem witness_WarmClearAndFaultEntryEnd :
    (enteringState .quiet).Sound ∧ (enteringState .quiet).control.part = .faulted ∧
    (enteringState .quiet).control.entering = true ∧ (enteringState .quiet).engine.state = .quiet ∧
    (∀ c : Fin 8, ((enteringState .quiet).channel c).fetch = .none) ∧
    (enteringState .quiet).control.clearNoted = false ∧ (enteringState .quiet).conceal.table = [] ∧
    (enteringState .quiescing).Sound ∧ (enteringState .quiescing).engine.state ≠ .quiet :=
  ⟨enteringState_sound _, rfl, rfl, rfl, by decide, rfl, rfl, enteringState_sound _, by decide⟩

/-- The same with a clear noted. -/
def notedState : State :=
  { enteringState .quiet with control := { (enteringState .quiet).control with clearNoted := true } }

theorem witness_WarmClearAndFaultEntryEnd_noted :
    notedState.Sound ∧ notedState.control.part = .faulted ∧ notedState.control.entering = true ∧
    notedState.engine.state = .quiet ∧ (∀ c : Fin 8, (notedState.channel c).fetch = .none) ∧
    notedState.control.clearNoted = true ∧ ∀ e ∈ notedState.conceal.table, e.checkOk = true :=
  ⟨⟨⟨rfl, rfl, rfl, ⟨rfl, fun _ h => nomatch h⟩, Nat.zero_le _, Nat.zero_le _, Nat.zero_le _,
    Nat.le_refl 100, fun _ => rfl, fun _ => rfl⟩, rfl, rfl⟩, rfl, rfl, rfl, by decide, rfl, by decide⟩

/-! ## Witnesses: extents, parity and formats -/

theorem witness_InsertionIsTheUnionOrTheWholeFrame :
    Extent.wf 16 exampleExtent = true ∧
    -- a union of four ranges
    (Extent.wf 16 [⟨3, 2⟩, ⟨6, 2⟩, ⟨11, 1⟩, ⟨14, 2⟩] = true ∧
      (∀ q, q < 20 → Extent.holds [⟨3, 2⟩, ⟨6, 2⟩, ⟨11, 1⟩, ⟨14, 2⟩] q =
        (exampleExtent.holds q || SectorRange.holds ⟨15, 1⟩ q)) ∧
      Extent.insert 16 exampleExtent ⟨15, 1⟩ = [⟨3, 2⟩, ⟨6, 2⟩, ⟨11, 1⟩, ⟨14, 2⟩]) ∧
    -- one of five
    (exampleExtent.union ⟨9, 1⟩).length = 5 ∧ Extent.insert 16 exampleExtent ⟨9, 1⟩ = Extent.whole 16 := by
  decide
theorem witness_RemovalFromAnExtent :
    Extent.wf 16 exampleExtent = true ∧ exampleExtent.holds 5 = false ∧
    exampleExtent = [⟨3, 2⟩] ++ ⟨6, 2⟩ :: [⟨11, 1⟩, ⟨14, 1⟩] ∧ Extent.wf 16 [⟨1, 4⟩] = true ∧
    Extent.remove [⟨1, 4⟩] 1 = ([⟨2, 3⟩], true) ∧ Extent.remove [⟨1, 4⟩] 4 = ([⟨1, 3⟩], true) ∧
    Extent.remove [⟨1, 4⟩] 2 = ([⟨1, 1⟩, ⟨3, 2⟩], true) ∧ Extent.remove [⟨1, 1⟩] 1 = ([], true) := by decide
theorem witness_RebuildRecoversEveryMember :
    [1, 4, 5, 6, 7].Pairwise (· < ·) ∧ [1, 4, 5, 6, 7].length = [0x12, 0x34, 0x56, 0x78, 0x9A].length ∧
    ∀ m ∈ [1, 4, 5, 6, 7], m < 5 + 3 := by decide

theorem witness_SyndromeIndicatesTheWrongMember :
    2 ≤ [(1 : Byte), 2].length ∧ [(1 : Byte), 2].length ≤ 12 ∧ 3 < [(1 : Byte), 2].length + 2 ∧ (1 : Byte) ≠ 0 := by
  decide

/-- No well-formed extent holds just the positions of that union of five ranges. -/
theorem witness_InsertionIsTheUnionOrTheWholeFrame_five : ¬ ∃ u : Extent, u.wf 16 = true ∧
    ∀ q, u.holds q = (exampleExtent.holds q || SectorRange.holds ⟨9, 1⟩ q) := by
  rintro ⟨u, w, h⟩
  have h3 := h 3; have h5 := h 5; have h6 := h 6; have h8 := h 8; have h9 := h 9
  have h10 := h 10; have h11 := h 11; have h12 := h 12; have h14 := h 14
  have y : ∀ q, q ∈ [3, 6, 9, 11, 14] → ∃ r ∈ u, r.first ≤ q ∧ q < r.first + r.count := by
    intro q hq
    have t : u.holds q = true := by
      rw [h q]
      revert q
      decide
    simp only [Extent.holds, List.any_eq_true] at t
    obtain ⟨r, hr, t⟩ := t
    have t := (Bool.and_eq_true _ _).mp t
    exact ⟨r, hr, of_decide_eq_true t.1, of_decide_eq_true t.2⟩
  have z : ∀ q, q ∈ [5, 8, 10, 12] → ∀ r ∈ u, ¬ (r.first ≤ q ∧ q < r.first + r.count) := by
    intro q hq r hr hh
    have t : u.holds q = false := by
      rw [h q]
      clear hh
      revert q
      decide
    rw [Extent.holds, List.any_eq_false] at t
    exact t r hr ((Bool.and_eq_true _ _).mpr ⟨decide_eq_true hh.1, decide_eq_true hh.2⟩)
  obtain ⟨a, ha, a'⟩ := y 3 (by decide)
  obtain ⟨b, hb, b'⟩ := y 6 (by decide)
  obtain ⟨c, hc, c'⟩ := y 9 (by decide)
  obtain ⟨d, hd, d'⟩ := y 11 (by decide)
  obtain ⟨e, he, e'⟩ := y 14 (by decide)
  have nd : [a, b, c, d, e].Nodup := by
    have za := z 5 (by decide) a ha
    have zb := z 8 (by decide) b hb
    have zc := z 10 (by decide) c hc
    have zd := z 12 (by decide) d hd
    simp only [List.nodup_cons, List.mem_cons, List.not_mem_nil, or_false, not_or, not_false_eq_true,
      List.nodup_nil, and_true]
    refine ⟨⟨?_, ?_, ?_, ?_⟩, ⟨?_, ?_, ?_⟩, ⟨?_, ?_⟩, ?_⟩ <;> rintro rfl <;> omega
  have sub : [a, b, c, d, e].length ≤ u.length := nd.length_le_of_subset (by simp [*])
  have cap : u.length ≤ 4 := of_decide_eq_true ((Bool.and_eq_true _ _).mp w).1
  have five : 5 ≤ 4 := Nat.le_trans sub cap
  exact absurd five (by decide)

theorem witness_FrameNumbersTailsAndWordsRead :
    0 < (groupIn .restore .gathering).dataCount ∧ (groupIn .restore .gathering).dataCount ≤ 2 ∧ 65535 < 65536 ∧
    -- the last sector and the tail page, their last bytes
    testConfig.sectors = 8 ∧
    testConfig.resolve (testConfig.payloadAddr 5 7 + 4095) = { slot := 5, page := .payload 7, offset := 4095 } ∧
    testConfig.resolve (testConfig.payloadAddr 5 8 + 4095) = { slot := 5, page := .tail, offset := 4095 } := by
  decide +kernel
theorem witness_WrittenWordsHaveTheirFields :
    State.reset.control.contained.first = none ∧
    (∃ l : FaultLog, l.first = some (mapParityFault 5 (some 0) (some 77))) ∧
    (exampleExtent.length ≤ 4 ∧ exampleExtent[3]? = some ⟨14, 1⟩) := by
  refine ⟨rfl, ⟨{ first := some (mapParityFault 5 (some 0) (some 77)), next := [] }, rfl⟩, by decide⟩

/-- The record of a malformed request of tag 31. -/
def malformedRecord : FaultRecord :=
  { kind := .malformed, channel := none, groupNumber := none, slot := none, sector := none
    detail := some (.malformed 0x123456789 31) }

theorem witness_WrittenWordsHaveTheirFields_record :
    (groupIn .restore .retiring).role = .restore ∧ degradedGroup.role = .record ∧ [2].Nodup ∧
    (∀ q, q ∈ [2] ↔ ∃ m ∈ degradedGroup.members, q ∈ m.failed) ∧
    ∃ r : FaultRecord, r.detail = some (.malformed 0x123456789 31) := by
  refine ⟨rfl, rfl, by decide, fun q => ?_, ⟨malformedRecord, rfl⟩⟩
  simp [degradedGroup, memberAt]

end Sys2Proof.Machine
end

section
/-! PROOFS. The Repair Engine at one position: what taking up, judging and finishing a REBUILD or an AUDIT position
does to the state (R145 to R154), and the end of the job (R130, R151, R158). -/
namespace Sys2Proof.Machine.EnginePositions

/-! ## Sets of positions -/

/-- A position put into a set is in it, with those that were in it before. -/
theorem mem_positions_insert (a q : Nat) : ∀ ps : Positions, q ∈ Positions.insert a ps ↔ q ∈ ps ∨ q = a
  | [] => by simp [Positions.insert]
  | p :: ps => by
    unfold Positions.insert
    split
    · simp [or_comm]
    · split
      · rename_i heq
        simp [heq, or_comm]
      · simp [mem_positions_insert a q ps, or_assoc]

/-! ## Reading frames and groups -/

section
variable {s t : State} {g : Nat} {grp : Group}

theorem frame_of_map_eq (h : t.map = s.map) (k : Nat) : t.frame k = s.frame k := by
  simp [State.frame, h]

theorem group_of_groups_eq (h : t.groups = s.groups) (g : Nat) : t.group g = s.group g := by
  simp [State.group, h]

/-- The slot written holds the entry with its check bits made good; every other slot is as before (R19). -/
theorem frame_putFrame (s : State) (k : Nat) (e : FrameEntry) (j : Nat) :
    (s.putFrame k e).frame j = if k = j then { e with parityOk := true } else s.frame j := by
  unfold State.frame State.putFrame
  dsimp only
  split
  · rename_i free
    rw [Table.get_remove]
    split
    · exact free.symm
    · rfl
  · rw [Table.get_put]
    split <;> rfl

/-- The group changed, with its check bits made good (R103, R116). -/
theorem modGroup_group (h : s.group g = some grp) (f : Group → Group) :
    (s.modGroup g f).group g = some { f grp with checkOk := true } := by
  simp only [State.modGroup, h]
  simp [State.group, Table.get_put]

/-- Reading an entry whose check bits agree changes nothing (R19). -/
theorem touch_of_parityOk {k : Nat} (h : (s.frame k).parityOk = true) : s.touch k = s := by
  simp [State.touch, h]

/-- Reading the entries of members whose check bits agree changes nothing (R19). -/
theorem touchAll_slots_of_parityOk (h : ∀ m ∈ grp.members, (s.frame m.slot).parityOk = true) :
    s.touchAll grp.slots = s := by
  have fixed : ∀ ks : List Nat, (∀ k ∈ ks, (s.frame k).parityOk = true) → s.touchAll ks = s := by
    intro ks
    induction ks with
    | nil => intro _; rfl
    | cons k ks ih =>
      intro ok
      calc s.touchAll (k :: ks) = (s.touch k).touchAll ks := rfl
        _ = s.touchAll ks := by rw [touch_of_parityOk (ok k (by simp))]
        _ = s := ih fun j hj => ok j (by simp [hj])
  exact fixed _ fun k hk => by
    obtain ⟨m, hm, rfl⟩ := List.mem_map.1 hk
    exact h m hm

/-- The members of a group that pass a test have a non-empty extent among them. -/
theorem anyDamaged_iff (s : State) (grp : Group) (p : Member → Bool) :
    s.anyDamaged grp p = true ↔ ∃ m ∈ grp.members, p m = true ∧ s.extentOf m.slot ≠ [] := by
  simp [State.anyDamaged]

/-! ## Counting a position, finishing it, and going on -/

/-- A position counted beyond parity joins the group's set; its counts and members stand (R129). -/
theorem beyondPosition_group (h : s.group g = some grp) (position : Nat) :
    ∃ grp', (s.beyondPosition g position).group g = some grp' ∧ grp'.counts = grp.counts ∧
      grp'.members = grp.members ∧ ∀ q, q ∈ grp'.beyond ↔ q ∈ grp.beyond ∨ q = position :=
  ⟨_, modGroup_group h _, rfl, rfl, fun q => mem_positions_insert position q grp.beyond⟩

@[simp] theorem beyondPosition_engine (s : State) (g p : Nat) : (s.beyondPosition g p).engine = s.engine := by
  simp [State.beyondPosition]
@[simp] theorem beyondPosition_memPort (s : State) (g p : Nat) : (s.beyondPosition g p).memPort = s.memPort := by
  simp [State.beyondPosition]

/-- A cursor notice takes no task from the step. -/
theorem mem_noticePosition_agenda {task : Task} (h : task ∈ s.agenda) (g p : Nat) :
    task ∈ (s.noticePosition g p).agenda := by
  unfold State.noticePosition
  split
  · split
    · simp [h]
    · exact h
  · exact h

/-- A finished AUDIT position leaves an empty context and an engine that advances (R145). -/
theorem finishPosition_audit (s : State) (g position : Nat) :
    s.finishPosition g .audit position = { s with
      engine := { s.engine with context := PositionContext.empty }, agenda := .advance :: s.agenda } := rfl

/-- A finished REBUILD position leaves an empty context, an engine that advances, and groups and memory port as they
were (R145). -/
theorem finishPosition_rebuild (s : State) (g position : Nat) :
    let t := s.finishPosition g .rebuild position
    t.engine = { s.engine with context := PositionContext.empty } ∧ .advance ∈ t.agenda ∧
      t.groups = s.groups ∧ t.memPort = s.memPort := by
  refine ⟨?_, ?_, ?_, ?_⟩
  · simp [State.finishPosition]
  · exact mem_noticePosition_agenda (by simp) g position
  · simp [State.finishPosition]
  · simp [State.finishPosition]

/-- A REBUILD position with too many members damaged is counted and finished (R152, R153). -/
theorem beyond_finishPosition_rebuild (h : s.group g = some grp) (position : Nat) :
    let t := (s.beyondPosition g position).finishPosition g .rebuild position
    ∃ grp', t.engine = { s.engine with context := PositionContext.empty } ∧ .advance ∈ t.agenda ∧
      t.group g = some grp' ∧ (∀ q, q ∈ grp'.beyond ↔ q ∈ grp.beyond ∨ q = position) ∧
      t.memPort = s.memPort := by
  obtain ⟨engine, advances, groups, memPort⟩ := finishPosition_rebuild (s.beyondPosition g position) g position
  obtain ⟨grp', got, -, -, beyond⟩ := beyondPosition_group h position
  exact ⟨grp', by rw [engine]; simp, advances, by rw [group_of_groups_eq groups]; exact got, beyond, by
    rw [memPort]; simp⟩

/-- The RUNNING engine takes up the position its cursor names for the job in service (R145). -/
theorem takeUp_eq {kind : JobKind} {position : Nat} (running : s.engine.state = .running)
    (service : s.engine.service = some (g, kind)) (cursor : s.engine.cursor = some position)
    (h : s.group g = some grp) : s.takeUp = s.takeUpPosition g grp kind position := by
  simp [State.takeUp, running, service, cursor, h]

/-- Behind position N − 1 the RUNNING engine ends its job (R130, R145). -/
theorem advance_eq_endJob {kind : JobKind} {position : Nat} (running : s.engine.state = .running)
    (service : s.engine.service = some (g, kind)) (cursor : s.engine.cursor = some position)
    (h : s.group g = some grp) (last : s.sectors ≤ position + 1) : s.advance = s.endJob g grp kind := by
  simp [State.advance, running, service, cursor, h, Nat.not_lt.2 last]

end

/-! ## REBUILD -/

section
variable {s : State} {g position : Nat} {grp : Group}

/-- The undamaged members, in member order: the survivors are the first D of them (R153). -/
def undamaged (grp : Group) (damaged : Positions) : Positions :=
  (List.range grp.members.length).filter (fun m => !damaged.contains m)

theorem mem_undamaged {damaged : Positions} {i : Nat} :
    i ∈ undamaged grp damaged ↔ i < grp.members.length ∧ i ∉ damaged := by
  simp [undamaged]

theorem undamaged_rising (grp : Group) (damaged : Positions) : (undamaged grp damaged).Pairwise (· < ·) :=
  List.pairwise_lt_range.filter _

theorem survivors_eq_take (grp : Group) (damaged : Positions) :
    survivors grp damaged = (undamaged grp damaged).take grp.dataCount := rfl

/-- What a rising list keeps behind its first elements lies above all of them, and there are as many of them as were
taken. -/
theorem length_take_and_lt_of_not_mem_take {l : List Nat} (rising : l.Pairwise (· < ·)) {d i : Nat} (mem : i ∈ l)
    (left : i ∉ l.take d) : (l.take d).length = d ∧ ∀ k ∈ l.take d, k < i := by
  rw [← List.take_append_drop d l] at mem rising
  have dropped : i ∈ l.drop d := (List.mem_append.1 mem).resolve_left left
  obtain ⟨-, -, below⟩ := List.pairwise_append.1 rising
  have longer : 0 < (l.drop d).length := List.length_pos_of_mem dropped
  rw [List.length_drop] at longer
  exact ⟨List.length_take_of_le (by omega), fun k hk => below k hk i dropped⟩

/-- The survivors are the first D undamaged members in member order (R153). -/
theorem survivors_spec (grp : Group) (damaged : Positions) :
    (survivors grp damaged).Pairwise (· < ·) ∧
    (∀ i ∈ survivors grp damaged, i < grp.members.length ∧ i ∉ damaged) ∧
    (survivors grp damaged).length ≤ grp.dataCount ∧
    (∀ i, i < grp.members.length → i ∉ damaged → i ∉ survivors grp damaged →
      (survivors grp damaged).length = grp.dataCount ∧ ∀ k ∈ survivors grp damaged, k < i) := by
  rw [survivors_eq_take]
  refine ⟨(undamaged_rising grp damaged).sublist (List.take_sublist _ _),
    fun i hi => mem_undamaged.1 (List.mem_of_mem_take hi), List.length_take_le _ _, fun i inside sound left => ?_⟩
  exact length_take_and_lt_of_not_mem_take (undamaged_rising grp damaged) (mem_undamaged.2 ⟨inside, sound⟩) left

/-- Taking up a REBUILD position none of whose members fails its check: the three cases of R152. -/
theorem takeUpPosition_rebuild (ok : ∀ m ∈ grp.members, (s.frame m.slot).parityOk = true) :
    s.takeUpPosition g grp .rebuild position =
      if s.damagedSet grp position = [] then s.finishPosition g .rebuild position
      else if grp.parityCount < (s.damagedSet grp position).length then
        (s.beyondPosition g position).finishPosition g .rebuild position
      else s.readMembers (s.damagedSet grp position) (survivors grp (s.damagedSet grp position)) := by
  simp only [State.takeUpPosition, touchAll_slots_of_parityOk ok]

/-- An undamaged position, or one with more than P members damaged, is finished at once (R152). -/
theorem takeUpPosition_rebuild_finishes (h : s.group g = some grp)
    (ok : ∀ m ∈ grp.members, (s.frame m.slot).parityOk = true)
    (finishes : s.damagedSet grp position = [] ∨ grp.parityCount < (s.damagedSet grp position).length) :
    let t := s.takeUpPosition g grp .rebuild position
    ∃ grp', t.engine = { s.engine with context := PositionContext.empty } ∧ .advance ∈ t.agenda ∧
      t.group g = some grp' ∧
      (∀ q, q ∈ grp'.beyond ↔ q ∈ grp.beyond ∨ (s.damagedSet grp position ≠ [] ∧ q = position)) ∧
      t.memPort = s.memPort := by
  rw [takeUpPosition_rebuild ok]
  by_cases whole : s.damagedSet grp position = []
  · obtain ⟨engine, advances, groups, memPort⟩ := finishPosition_rebuild s g position
    rw [if_pos whole]
    exact ⟨grp, engine, advances, (group_of_groups_eq groups g).trans h, by simp [whole], memPort⟩
  · rw [if_neg whole, if_pos (finishes.resolve_left whole)]
    simpa [whole] using beyond_finishPosition_rebuild h position

/-- A REBUILD position whose reads are answered and none of whose members fails its check (R153, R154). -/
theorem rebuildReads_eq (ok : ∀ m ∈ grp.members, (s.frame m.slot).parityOk = true) :
    s.rebuildReads g grp position =
      let now := s.damagedSet grp position
      let c := s.engine.context
      let chosen := survivors grp now
      let kept := c.received.filter (fun x => chosen.contains x.1)
      let due := (chosen.filter (fun m => (kept.lookup m).isNone)).map dueRead
      let again := s.setContext (fun c =>
        { c with damaged := now, chosen := chosen, received := kept, readFailed := false, due := due })
      if ∀ m ∈ now, m ∈ c.damaged then s.rebuildWrites grp now
      else if grp.parityCount < now.length then
        (s.beyondPosition g position).finishPosition g .rebuild position
      else if due = [] then again.rebuildWrites grp now
      else again := by
  simp only [State.rebuildReads, touchAll_slots_of_parityOk ok, List.all_eq_true, List.contains_iff_mem]
  rfl

/-- Survivors chosen again, the sectors already read of them kept: if none is missing the writes are due, else the
missing reads (R153, R154). -/
theorem rebuildReads_chosenAgain (ok : ∀ m ∈ grp.members, (s.frame m.slot).parityOk = true)
    (grown : ∃ m ∈ s.damagedSet grp position, m ∉ s.engine.context.damaged)
    (within : (s.damagedSet grp position).length ≤ grp.parityCount) :
    let now := s.damagedSet grp position
    let chosen := survivors grp now
    let kept := s.engine.context.received.filter (fun x => chosen.contains x.1)
    let missing := chosen.filter (fun m => (kept.lookup m).isNone)
    let again := s.setContext (fun c => { c with
      damaged := now, chosen := chosen, received := kept, readFailed := false, due := missing.map dueRead })
    s.rebuildReads g grp position = if missing = [] then again.rebuildWrites grp now else again := by
  have not_same : ¬ ∀ m ∈ s.damagedSet grp position, m ∈ s.engine.context.damaged := by simpa using grown
  simp only [rebuildReads_eq ok, if_neg not_same, if_neg (Nat.not_lt.2 within), List.map_eq_nil_iff]

/-- The last position of a REBUILD none of whose members fails its check (R130, R158). -/
theorem endJob_rebuild (ok : ∀ m ∈ grp.members, (s.frame m.slot).parityOk = true) :
    s.endJob g grp .rebuild =
      if ∃ m ∈ grp.members, m.kind = .data ∧ s.extentOf m.slot ≠ [] then
        s.endService.push [.conceal g, .takeJob]
      else s.endService.push [.retire g, .takeJob] := by
  simp only [State.endJob, touchAll_slots_of_parityOk ok, anyDamaged_iff, beq_iff_eq]

end

/-- Settles O44, by the cases of each step of a REBUILD position: taking it up, its reads answered, the job's end. -/
theorem survivorsAreChosenAndChosenAgain : Obligations.SurvivorsAreChosenAndChosenAgain := by
  unfold Obligations.SurvivorsAreChosenAndChosenAgain
  refine ⟨survivors_spec, ?takenUp, ?answered, ?ended⟩
  case takenUp =>
    intro s g position grp running service cursor h ok
    rw [takeUp_eq running service cursor h]
    refine ⟨fun damaged within => ?_, takeUpPosition_rebuild_finishes h ok⟩
    rw [takeUpPosition_rebuild ok, if_neg damaged, if_neg (Nat.not_lt.2 within)]
    rfl
  case answered =>
    intro s g position grp h ok
    refine ⟨fun same => ?_, fun grown beyond => ?_, fun grown within => ⟨fun missing => ?_, fun complete => ?_⟩⟩
    · rw [rebuildReads_eq ok]
      exact if_pos same
    · have not_same : ¬ ∀ m ∈ s.damagedSet grp position, m ∈ s.engine.context.damaged := by simpa using grown
      obtain ⟨grp', engine, advances, got, counted, -⟩ := beyond_finishPosition_rebuild h position
      simp only [rebuildReads_eq ok, if_neg not_same, if_pos beyond]
      exact ⟨grp', engine, advances, got, counted⟩
    · exact (rebuildReads_chosenAgain ok grown within).trans (if_neg missing)
    · exact (rebuildReads_chosenAgain ok grown within).trans (if_pos complete)
  case ended =>
    intro s g position grp running service cursor h last ok
    rw [advance_eq_endJob running service cursor h last, endJob_rebuild ok]
    exact ⟨fun damaged => if_pos damaged, fun whole => if_neg whole⟩

/-! ## AUDIT -/

section
variable {d p : Nat} {columns : List (List Byte)}

/-- The columns of syndromes that are not all zero (R149). -/
def nonzeroColumns (columns : List (List Byte)) : List (List Byte) := columns.filter (fun col => col.any (· ≠ 0))

theorem mem_nonzeroColumns {col : List Byte} :
    col ∈ nonzeroColumns columns ↔ col ∈ columns ∧ ∃ x ∈ col, x ≠ 0 := by
  simp [nonzeroColumns]

theorem nonzeroColumns_ne_nil : nonzeroColumns columns ≠ [] ↔ ∃ col ∈ columns, ∃ x ∈ col, x ≠ 0 := by
  simp [nonzeroColumns]

/-- A position is clean when no column is nonzero (R149). -/
theorem auditColumns_eq_clean_iff : auditColumns d p columns = .clean ↔ nonzeroColumns columns = [] := by
  unfold auditColumns
  rw [← nonzeroColumns]
  cases nonzeroColumns columns with
  | nil => simp
  | cons col cols =>
    cases hfirst : columnIndicates d p col with
    | none => simp [hfirst]
    | some k =>
      simp only [List.map_cons, hfirst, reduceCtorEq, iff_false]
      split <;> simp

/-- A position is located at a member when some column is nonzero and every such column indicates it (R149). -/
theorem auditColumns_eq_located_iff (m : Nat) : auditColumns d p columns = .located m ↔
    nonzeroColumns columns ≠ [] ∧ ∀ col ∈ nonzeroColumns columns, columnIndicates d p col = some m := by
  unfold auditColumns
  rw [← nonzeroColumns]
  cases nonzeroColumns columns with
  | nil => simp
  | cons col cols =>
    cases hfirst : columnIndicates d p col with
    | none => simp [hfirst]
    | some k =>
      by_cases same : k = m
      · simp [hfirst, same]
      · simp only [List.map_cons, hfirst, List.mem_cons, forall_eq_or_imp, Option.some.injEq, same, false_and,
          and_false, iff_false]
        split <;> simp [same]

/-- There is no fourth result. -/
theorem auditColumns_eq_unlocated_iff : auditColumns d p columns = .unlocated ↔
    auditColumns d p columns ≠ .clean ∧ ∀ m, auditColumns d p columns ≠ .located m := by
  cases auditColumns d p columns <;> simp

/-- The judgement of a position's columns (R149). -/
theorem auditColumns_spec (d p : Nat) (columns : List (List Byte)) :
    let bad := fun (col : List Byte) => ∃ x ∈ col, x ≠ 0
    (auditColumns d p columns = .clean ↔ ∀ col ∈ columns, ¬ bad col) ∧
    (∀ m, auditColumns d p columns = .located m ↔ (∃ col ∈ columns, bad col) ∧
      ∀ col ∈ columns, bad col → columnIndicates d p col = some m) ∧
    (auditColumns d p columns = .unlocated ↔ (∃ col ∈ columns, bad col) ∧
      ∀ m, ∃ col ∈ columns, bad col ∧ columnIndicates d p col ≠ some m) := by
  intro bad
  have clean : auditColumns d p columns = .clean ↔ ¬ ∃ col ∈ columns, bad col := by
    rw [auditColumns_eq_clean_iff, ← nonzeroColumns_ne_nil, Classical.not_not]
  have located : ∀ m, auditColumns d p columns = .located m ↔ (∃ col ∈ columns, bad col) ∧
      ∀ col ∈ columns, bad col → columnIndicates d p col = some m := fun m => by
    simp only [auditColumns_eq_located_iff, nonzeroColumns_ne_nil, mem_nonzeroColumns, and_imp, bad]
  refine ⟨clean.trans (by simp only [not_exists, not_and]), located, ?_⟩
  rw [auditColumns_eq_unlocated_iff, ne_eq, clean, Classical.not_not]
  refine and_congr_right fun some_bad => forall_congr' fun m => ?_
  simp [located, some_bad]

end

section
variable {s : State} {g position i : Nat} {grp : Group} {m : Member}

/-- Taking up an AUDIT position none of whose members fails its check (R148). -/
theorem takeUpPosition_audit (ok : ∀ m ∈ grp.members, (s.frame m.slot).parityOk = true) :
    s.takeUpPosition g grp .audit position =
      if s.damagedSet grp position = [] then s.readMembers [] (List.range grp.members.length)
      else s.finishPosition g .audit position := by
  simp only [State.takeUpPosition, touchAll_slots_of_parityOk ok]
  cases s.damagedSet grp position <;> rfl

/-- What the judgement of the reads of an AUDIT position does, before the position is finished (R149, R150). -/
def auditVerdict (s : State) (g : Nat) (grp : Group) (position : Nat) : State :=
  if s.engine.context.readFailed then s
  else
    match auditSectors grp.dataCount grp.parityCount (s.engine.context.sectors grp.members.length) with
    | .clean => s
    | .unlocated => s.beyondPosition g position
    | .located i =>
      match grp.members[i]? with
      | some m =>
        (s.damageMember g i m.slot position).modGroup g (fun grp =>
          { grp with counts := { grp.counts with silentFound := grp.counts.silentFound + 1 } })
      | none => s

/-- What the reads of an AUDIT position come to: the verdict, and the position finished (R145, R149). -/
theorem auditReads_eq (s : State) (g : Nat) (grp : Group) (position : Nat) :
    s.auditReads g grp position = { auditVerdict s g grp position with
      engine := { (auditVerdict s g grp position).engine with context := PositionContext.empty }
      agenda := .advance :: (auditVerdict s g grp position).agenda } := rfl

theorem auditReads_map (s : State) (g : Nat) (grp : Group) (position : Nat) :
    (s.auditReads g grp position).map = (auditVerdict s g grp position).map := rfl

theorem auditReads_groups (s : State) (g : Nat) (grp : Group) (position : Nat) :
    (s.auditReads g grp position).groups = (auditVerdict s g grp position).groups := rfl

/-- A verdict is one of: nothing, a position counted, a member damaged. -/
theorem auditVerdict_cases (s : State) (g : Nat) (grp : Group) (position : Nat) :
    auditVerdict s g grp position = s ∨ auditVerdict s g grp position = s.beyondPosition g position ∨
      ∃ i slot f, auditVerdict s g grp position = (s.damageMember g i slot position).modGroup g f := by
  unfold auditVerdict
  split
  · exact .inl rfl
  · split
    · exact .inl rfl
    · exact .inr (.inl rfl)
    · split
      · exact .inr (.inr ⟨_, _, _, rfl⟩)
      · exact .inl rfl

/-- What no verdict touches leaves the verdict as it was: it damages, and counts, and that is all. -/
theorem auditVerdict_keeps {α : Type} (f : State → α) (insert : ∀ s k q, f (State.insertPosition s k q) = f s)
    (mod : ∀ s g h, f (State.modGroup s g h) = f s) (s : State) (g : Nat) (grp : Group) (position : Nat) :
    f (auditVerdict s g grp position) = f s := by
  obtain same | counted | ⟨i, slot, h, damaged⟩ := auditVerdict_cases s g grp position
  · rw [same]
  · rw [counted, State.beyondPosition, mod]
  · rw [damaged, mod, State.damageMember, State.markDamage, mod, insert]

@[simp] theorem auditVerdict_holds (s : State) (g : Nat) (grp : Group) (position : Nat) :
    (auditVerdict s g grp position).holds = s.holds :=
  auditVerdict_keeps (·.holds) insertPosition_holds modGroup_holds s g grp position
@[simp] theorem auditVerdict_engine (s : State) (g : Nat) (grp : Group) (position : Nat) :
    (auditVerdict s g grp position).engine = s.engine :=
  auditVerdict_keeps (·.engine) insertPosition_engine modGroup_engine s g grp position
@[simp] theorem auditVerdict_conceal (s : State) (g : Nat) (grp : Group) (position : Nat) :
    (auditVerdict s g grp position).conceal = s.conceal :=
  auditVerdict_keeps (·.conceal) insertPosition_conceal modGroup_conceal s g grp position
@[simp] theorem auditVerdict_memPort (s : State) (g : Nat) (grp : Group) (position : Nat) :
    (auditVerdict s g grp position).memPort = s.memPort :=
  auditVerdict_keeps (·.memPort) insertPosition_memPort modGroup_memPort s g grp position
@[simp] theorem auditVerdict_control (s : State) (g : Nat) (grp : Group) (position : Nat) :
    (auditVerdict s g grp position).control = s.control :=
  auditVerdict_keeps (·.control) insertPosition_control modGroup_control s g grp position
@[simp] theorem auditVerdict_agenda (s : State) (g : Nat) (grp : Group) (position : Nat) :
    (auditVerdict s g grp position).agenda = s.agenda :=
  auditVerdict_keeps (·.agenda) insertPosition_agenda modGroup_agenda s g grp position

/-- A position with a failed read, or a clean one, changes nothing (R149, R150). -/
theorem auditVerdict_quiet (quiet : s.engine.context.readFailed = true ∨
    auditSectors grp.dataCount grp.parityCount (s.engine.context.sectors grp.members.length) = .clean) :
    auditVerdict s g grp position = s := by
  unfold auditVerdict
  split
  · rfl
  · rename_i read
    rw [quiet.resolve_left read]

theorem auditVerdict_unlocated (read : s.engine.context.readFailed = false)
    (result : auditSectors grp.dataCount grp.parityCount (s.engine.context.sectors grp.members.length) =
      .unlocated) : auditVerdict s g grp position = s.beyondPosition g position := by
  simp [auditVerdict, read, result]

theorem auditVerdict_located (read : s.engine.context.readFailed = false)
    (result : auditSectors grp.dataCount grp.parityCount (s.engine.context.sectors grp.members.length) =
      .located i) (member : grp.members[i]? = some m) :
    auditVerdict s g grp position = (s.damageMember g i m.slot position).modGroup g (fun grp =>
      { grp with counts := { grp.counts with silentFound := grp.counts.silentFound + 1 } }) := by
  simp [auditVerdict, read, result, member]

/-- A position put into the extent of a slot whose check bits agree and that is not QUARANTINED (R28, R34). -/
theorem insertPosition_eq {slot : Nat} (ok : (s.frame slot).parityOk = true)
    (state : (s.frame slot).state ≠ .quarantined) (position : Nat) :
    s.insertPosition slot position = s.putFrame slot { s.frame slot with
      extent := Extent.insert s.sectors (s.frame slot).extent { first := position, count := 1 } } := by
  simp [State.insertPosition, State.insertRanges, touch_of_parityOk ok, state, Extent.insertAll]

/-- A member damaged at a position: the position is in its extent and no other slot's entry has changed (R28). -/
theorem damageMember_frame {slot : Nat} (ok : (s.frame slot).parityOk = true)
    (state : (s.frame slot).state ≠ .quarantined) (g place position k : Nat) :
    (s.damageMember g place slot position).frame k = if slot = k then { s.frame slot with
      extent := Extent.insert s.sectors (s.frame slot).extent { first := position, count := 1 }
      parityOk := true } else s.frame k := by
  rw [State.damageMember, State.markDamage, frame_of_map_eq (modGroup_map _ _ _), insertPosition_eq ok state,
    frame_putFrame]

/-- A member damaged at a position has its damage mark set; the group's counts stand (R129). -/
theorem damageMember_group (h : s.group g = some grp) (member : grp.members[i]? = some m) (slot position : Nat) :
    ∃ grp' m', (s.damageMember g i slot position).group g = some grp' ∧ grp'.members[i]? = some m' ∧
      m'.damageMark = true ∧ grp'.counts = grp.counts := by
  have before : (s.insertPosition slot position).group g = some grp :=
    (group_of_groups_eq (insertPosition_groups _ _ _) g).trans h
  exact ⟨_, { m with damageMark := true }, modGroup_group before _, by simp [Group.modMember, member], rfl, rfl⟩

/-- A located position is put into the member's extent, no other entry changing; its damage mark is set and silent
found rises (R149). -/
theorem auditReads_located (h : s.group g = some grp) (read : s.engine.context.readFailed = false)
    (result : auditSectors grp.dataCount grp.parityCount (s.engine.context.sectors grp.members.length) =
      .located i) (member : grp.members[i]? = some m) (ok : (s.frame m.slot).parityOk = true)
    (state : (s.frame m.slot).state ≠ .quarantined) :
    let t := s.auditReads g grp position
    (t.frame m.slot).extent =
      Extent.insert s.sectors (s.frame m.slot).extent { first := position, count := 1 } ∧
    (∀ k, k ≠ m.slot → t.frame k = s.frame k) ∧
    ∃ grp' m', t.group g = some grp' ∧ grp'.members[i]? = some m' ∧ m'.damageMark = true ∧
      grp'.counts = { grp.counts with silentFound := grp.counts.silentFound + 1 } := by
  intro t
  have verdict := auditVerdict_located (g := g) (position := position) read result member
  have frame (k : Nat) : t.frame k = (s.damageMember g i m.slot position).frame k :=
    frame_of_map_eq (by rw [auditReads_map, verdict, modGroup_map]) k
  obtain ⟨grp', m', got, marked, mark, counts⟩ := damageMember_group h member m.slot position
  have after := (congrArg (State.group · g) verdict).trans (modGroup_group got _)
  exact ⟨by simp [frame, damageMember_frame ok state],
    fun k other => by simp [frame, damageMember_frame ok state, other.symm],
    _, m', (group_of_groups_eq (auditReads_groups s g grp position) g).trans after, marked, mark, by simp [counts]⟩

/-- An unlocated position is counted beyond parity, and that is all (R149). -/
theorem auditReads_unlocated (h : s.group g = some grp) (read : s.engine.context.readFailed = false)
    (result : auditSectors grp.dataCount grp.parityCount (s.engine.context.sectors grp.members.length) =
      .unlocated) :
    let t := s.auditReads g grp position
    t.map = s.map ∧ ∃ grp', t.group g = some grp' ∧ grp'.counts = grp.counts ∧ grp'.members = grp.members ∧
      ∀ q, q ∈ grp'.beyond ↔ q ∈ grp.beyond ∨ q = position := by
  intro t
  have verdict := auditVerdict_unlocated (g := g) (position := position) read result
  obtain ⟨grp', got, rest⟩ := beyondPosition_group h position
  exact ⟨by rw [auditReads_map, verdict, State.beyondPosition, modGroup_map], grp',
    (group_of_groups_eq (auditReads_groups s g grp position) g).trans (by rw [verdict, got]), rest⟩

/-- The last position of an AUDIT none of whose members fails its check (R130, R151). -/
theorem endJob_audit (ok : ∀ m ∈ grp.members, (s.frame m.slot).parityOk = true) :
    s.endJob g grp .audit =
      if ∃ m ∈ grp.members, s.extentOf m.slot ≠ [] then
        { (s.putGroup g { grp with state := .reconstructing }) with
          engine := { s.engine with
            service := some (g, .rebuild), cursor := some 0, context := PositionContext.empty }
          agenda := .takeUp :: s.agenda }
      else s.endService.push [.retire g, .takeJob] := by
  simp only [State.endJob, touchAll_slots_of_parityOk ok, anyDamaged_iff, true_and]
  rfl

end

/-- Settles O45, by the cases of each step of an AUDIT position: taking it up, its verdict, the job's end. -/
theorem auditedPositionIsJudged : Obligations.AuditedPositionIsJudged := by
  unfold Obligations.AuditedPositionIsJudged
  refine ⟨?takenUp, auditColumns_spec, ?judged, ?ended⟩
  case takenUp =>
    intro s g position grp running service cursor h ok
    rw [takeUp_eq running service cursor h, takeUpPosition_audit ok]
    exact ⟨fun whole => if_pos whole, fun damaged => if_neg damaged⟩
  case judged =>
    intro s g position grp h result t
    refine ⟨by simp [t, auditReads_eq], by simp [t, auditReads_eq], fun quiet => ?_,
      fun i m read located member ok state => auditReads_located h read located member ok state,
      fun read unlocated => auditReads_unlocated h read unlocated, ?_, ?_, ?_, ?_⟩
    · rw [auditReads_map, auditReads_groups, auditVerdict_quiet quiet]
      exact ⟨rfl, rfl⟩
    all_goals simp [t, auditReads_eq]
  case ended =>
    intro s g position grp running service cursor h last ok
    rw [advance_eq_endJob running service cursor h last, endJob_audit ok]
    exact ⟨fun damaged => if_pos damaged, fun whole => if_neg whole⟩

end Sys2Proof.Machine.EnginePositions
end
